-- ==== Sys2Proof/Word.lean ====
section
/-! DEFINITION. The word types of the register bus and of the memories. -/

namespace Sys2Proof

/-- A register: 32 bits (R40). -/
abbrev Word := BitVec 32
/-- One byte of memory. -/
abbrev Byte := BitVec 8

end Sys2Proof
end

