-- ==== Sys2Proof/Syntax.lean ====
section
/-! DEFINITION. The commands of the device, one constructor per row of spec/opcode_table.json, and the plain data their
operands are made of. The table gives a row no operands; a constructor carries what its event brings from outside the
device's state: the unit it happens at, the access and its origin, the packet, the reading, the object (log entry 1).
Everything else a command needs it finds in the state. -/

namespace Sys2Proof

/-- A core: its die, its cluster within the die, and its ID SLOT (0 to 8 matrix, 9 and 10 vector, 11 scalar; R42). -/
structure CoreRef where
  die : Nat
  cl : Nat
  slot : Nat
deriving DecidableEq, Repr

/-- The origin of a register access (R484): class 0 to 8 and its ID. -/
structure Org where
  cls : Nat
  id : Nat
deriving DecidableEq, Repr

/-- A register block (R61 to R63): the chip-level blocks, the blocks of a die, and the blocks of a cluster or core. -/
inductive Blk where
  | glb | mgc | sel | clk | pwr | age | tck | log | pci | mrk | fab | rst | dbg
  | die (d : Nat) | prs (d : Nat) | snp (d : Nat) | rstd (d : Nat)
  | nsc (d i : Nat) | fmc (d i : Nat) | lnk (d i : Nat) | msh (d r : Nat)
  | clu (d c : Nat) | str (d c i : Nat)
  | cor (c : CoreRef) | seq (c : CoreRef) | arr (c : CoreRef) | fed (c : CoreRef) | vec (c : CoreRef)
  | txb (c : CoreRef) | sct (c : CoreRef) | lmm (c : CoreRef)
deriving DecidableEq, Repr

/-- Reset domains (R23, R433): the chip, a die, a cluster, a core, an engine (a block's own reset), a context. -/
inductive Dom where
  | chip
  | die (d : Nat)
  | cluster (d c : Nat)
  | core (c : CoreRef)
  | engine (b : Blk)
  | context (x : Nat)
deriving DecidableEq, Repr

/-- The operations of packets (R287, R309). -/
inductive Op where
  | put | get | add | cas | flagAdd | putNotify | ack | nack | data | casOld | mcReserve | mcGrant | mcData
  | reserved (code : Nat)
deriving DecidableEq, Repr

/-- A packet: the header fields of R308 and its payload. `flow` says whether it travels on a flow context (R289); `tag`
is the issuer's tracking entry (R312), which a response echoes as it echoes SEQ. -/
structure Packet where
  op : Op
  cls : Nat := 1
  sub : Nat := 0
  addr : Nat := 0
  srcDev : Nat := 0
  dstFlow : Nat := 0
  srcFlow : Nat := 0
  seq : Nat := 0
  atype : Nat := 0
  last : Bool := false
  bank : Nat := 0
  len : Nat := 0
  total : Nat := 0
  aux0 : Nat := 0
  aux1 : Nat := 0
  data : List Byte := []
  /-- one poison bit per flit of payload (R234) -/
  poison : List Bool := []
  /-- a reserved bit or value of the header was set (R322) -/
  bad : Bool := false
  flow : Bool := false
  tag : Nat := 0
  /-- the requests merged into this one: source device, source flow and SEQ of each (R295) -/
  merged : List (Nat × Nat × Nat) := []
deriving DecidableEq, Repr

/-- A packet as it arrives at its target unit: over a link (and which), or from a unit of the device itself. -/
structure Arrival where
  pkt : Packet
  link : Option Nat := none
deriving DecidableEq, Repr

/-- One 528-bit data unit of the link-layer stream (R306): its tag and its flit of 64 bytes. -/
structure DataUnit where
  vc : Nat := 0
  sop : Bool := false
  eop : Bool := false
  poison : Bool := false
  valid : Bool := false
  flit : List Byte := []
deriving DecidableEq, Repr

/-- The tick fields of a control unit (R306). -/
structure Tick where
  snum : Nat
  slen : Nat
  phase : Nat
  holdExp : Bool
  lead : Nat
  announce : Nat
deriving DecidableEq, Repr

/-- A tick as it is received: its fields, and whether the block that brought them was marked REPLAY (R307 rule 4). -/
structure TickRx where
  tick : Tick
  replay : Bool := false
deriving DecidableEq, Repr

/-- What RS(544,514) has found in a received block: symbols corrected, and uncorrectable codewords (R304, R328). -/
structure FecCount where
  corrected : Nat := 0
  uncorr : Nat := 0
deriving DecidableEq, Repr

/-- A block of the link layer: up to 64 data units and the control unit that closes it (R306). -/
structure Block where
  units : List DataUnit := []
  bseq : Nat := 0
  ack : Nat := 0
  retry : Bool := false
  rseq : Nat := 0
  credit : List Nat := []
  shared : Nat := 0
  tick : Option Tick := none
  arrive : Nat := 0
  holdb : Nat := 0
  crc : Word := 0
  replay : Bool := false
deriving DecidableEq, Repr

/-- A signed object (R477): the fields of its signature block and its body. -/
structure SignedObj where
  kind : Nat := 0
  flags : Nat := 0
  ctr : Nat := 0xFF
  svn : Nat := 0
  length : Nat := 0
  reservedZero : Bool := true
  digest : List Byte := []
  vkeyid : List Byte := []
  vsig : List Byte := []
  okeyid : List Byte := []
  osig : List Byte := []
  ownerKey : List Byte := []
  body : List Byte := []
deriving DecidableEq, Repr

/-- A stream's word as patterns name it: core type and logical number, stream, word position (R251). -/
structure WordRef where
  ty : Nat
  n : Nat
  stream : Nat
  pos : Nat
deriving DecidableEq, Repr

/-- Cores section of a pattern (R251). -/
structure PatCore where
  ty : Nat
  n : Nat
  lc : Nat
  streams : List Nat
  rings : List Nat
  persist : List (Nat × Nat)
deriving DecidableEq, Repr

/-- Buffers section: hint 0 NEAR, 1 FAR, 2 ANY; reuse in 8.8 fixed point; the home logical core as type and number. -/
structure PatBuffer where
  n : Nat
  size : Nat
  reuse : Nat
  hint : Nat
  home : Option (Nat × Nat)
  persist : Bool
deriving DecidableEq, Repr

/-- Flows section; kind is FAB_FLOW.KIND, peerFlow the flow context at the other end. -/
structure PatFlow where
  n : Nat
  srcTy : Nat
  srcCore : Nat
  srcDev : Nat
  dstTy : Nat
  dstCore : Nat
  dstDev : Nat
  winPkts : Nat
  win4k : Nat
  kind : Nat
  peerFlow : Nat
deriving DecidableEq, Repr

/-- Schedule section (R259). -/
structure PatSched where
  flow : Nat
  first : Nat
  count : Nat
  bytes : Nat
  hopClass : Nat
  mask : Nat
deriving DecidableEq, Repr

/-- A member of a count set: the update word, and the device it is on when it is remote. -/
structure CountMember where
  word : WordRef
  device : Option Nat
deriving DecidableEq, Repr

/-- Waits section: a wait word and its count set (R271). -/
structure PatWait where
  word : WordRef
  members : List CountMember
deriving DecidableEq, Repr

/-- A movable segment (R264): the matrix core and the stream it belongs to, its words, and its completion flag. -/
structure PatSegment where
  core : Nat
  stream : Nat
  words : List (List Byte)
  done : Nat
deriving DecidableEq, Repr

/-- A balance group, its movable segments (R264), and the properties that rest on more than their words: descriptor sets and addresses
held in registers decide what K runs over and where an ADD goes. -/
structure PatBalance where
  cores : List Nat
  segs : List PatSegment
  kOverTokens : Bool
  foreignAdd : Bool
  /-- the logical buffer that holds the block list of each core of the group, in the order of `cores` (R265) -/
  lists : List Nat
deriving DecidableEq, Repr

/-- A migration slot (R263): direction true moves to the near store. -/
structure PatMig where
  buffer : Nat
  toNear : Bool
  segment : Nat
  bytesPerSlot : Nat
  slots : List Nat
  touched : Bool
deriving DecidableEq, Repr

/-- Where a relocation writes (R257). -/
inductive RelocLoc where
  | sreg (w : WordRef) (reg : Nat)
  | word (buffer off lo : Nat)
deriving DecidableEq, Repr

/-- A relocation: the place, the buffer or flow named, and the byte offset. -/
structure PatReloc where
  loc : RelocLoc
  isFlow : Bool
  item : Nat
  offset : Nat
deriving DecidableEq, Repr

/-- A multicast or reduction group (R319, R357): its source device, and its members as (device, base address, logical flow). -/
structure PatGroup where
  n : Nat
  source : Nat
  members : List (Nat × Nat × Nat)
deriving DecidableEq, Repr

/-- A reduction group (R357): each member's device, accumulator region base and RED flow, and the number of the multicast groups
over the same members, one for each source. -/
structure PatRed where
  n : Nat
  members : List (Nat × Nat × Nat)
  mc : Nat
deriving DecidableEq, Repr

/-- The token assignment of a sequence group (R266): the logical buffer of the counts, the rank, and the assignment buffer. -/
structure PatAssign where
  counts : Nat
  rank : Nat
  dest : Nat
deriving DecidableEq, Repr

/-- A pattern (R251): the header's values, the sections, and the signed object that carries it. The spec gives the
entries' contents and sizes and no byte layout, so the sections are plain data (log entry 11). -/
structure Pattern where
  obj : SignedObj
  wellFormed : Bool
  grades : List Nat
  framed : Bool
  len : Nat
  guard : Nat
  wmax : Nat
  planned : Nat
  lead : Nat
  epochSegs : Nat
  period : Nat
  sg : Nat
  p : Nat
  fblk : Nat
  cores : List PatCore
  buffers : List PatBuffer
  flows : List PatFlow
  sched : List PatSched
  waits : List PatWait
  /-- words that wait or update, stream by stream in order (the nodes of R271) -/
  syWords : List WordRef
  balance : List PatBalance
  migs : List PatMig
  relocs : List PatReloc
  groups : List PatGroup
  reds : List PatRed
  assign : Option PatAssign
deriving DecidableEq, Repr

/-- A failed residue check in a cell (R96): physical row and column, the stage of R122 whose check it is (0 multiply, 1 sum,
2 accumulate), and which check. -/
structure CheckFail where
  row : Nat
  col : Nat
  stage : Fin 3
  shift : Bool
deriving DecidableEq, Repr

/-- Bit errors that have struck a stored granule: its physical key and how many bits (bytes in far memory) are wrong. -/
structure Flaw where
  key : Nat
  n : Nat
deriving DecidableEq, Repr

/-- Host-side errors of R507. -/
inductive TlpError where
  | malformed | flowControl | overflow | ecrc | poisonedWrite | unsupported | completerAbort | completionTimeout | unexpected | flitCrc
deriving DecidableEq, Repr

/-- One sample of the wear monitors of a unit (R460): kind 0 cluster (its worst path readings in 0.1 %, the worst of them `margin`; the lowest
voltage at which canary rows pass and the SRAM margin, in mV), 1 link, 2 channel (margin in %). -/
structure WearReading where
  kind : Nat
  unit : Nat
  margin : Nat
  paths : List Nat
  vmin : Nat
  sram : Nat
  late : Bool
deriving DecidableEq, Repr

/-- What a Tape period measures (R453), in watts: fixed power and the demand of each cluster; and the input's voltage in
10 mV and power. -/
structure TapeInput where
  fixed : Nat
  demand : List Nat
  cv : Nat
  watts : Nat
deriving DecidableEq, Repr

/-- One core-firmware image (R442): its signed manifest set, type, manifest and image. -/
structure CoreFw where
  obj : SignedObj
  ty : Nat
  manifest : List Byte
  image : List Byte
deriving DecidableEq, Repr

/-- A management image (R423, R476): its signed object, the root public key that signed it, its vendor key list (key and usage mask)
and its version. -/
structure MgmtImg where
  obj : SignedObj
  rootKey : List Byte
  keys : List (List Byte × Nat)
  version : Nat
deriving DecidableEq, Repr

/-- What a start finds (R423, R427 to R430): the images in the flash, steps and units that fail their tests, self-tests of the Selvedge
that fail (R475), and the steps' durations in ms. -/
structure BootFindings where
  selFails : Nat := 0
  mgmt : List MgmtImg := []
  core : List CoreFw := []
  step2Fails : Bool := false
  /-- the host link as trained: speed code and 16 times its lanes (R519) -/
  hostLink : Nat := 262
  badRouters : List (Nat × Nat) := []
  /-- near-store subarrays beyond repair: die, controller and subarray -/
  nearFails : List (Nat × Nat × Nat) := []
  /-- blocks that fail their logic BIST, or as LMM their local-memory test -/
  badUnits : List Blk := []
  /-- repairs of local memories and near stores that the tests decide: KIND 3 to 6, block, index and replacement (R432) -/
  repairs : List (Nat × Blk × Nat × Nat) := []
  badFmcs : List (Nat × Nat) := []
  badChannels : List Nat := []
  badCores : List CoreRef := []
  /-- defective cells of a core's array: physical row and column -/
  arrayDefects : List (CoreRef × List (Nat × Nat)) := []
  /-- firmware chunks that cores pulled (R443) -/
  pulls : Nat := 0
  ms : List Nat := []
  /-- register writes of management firmware before the lock: BAR0 offset and value -/
  writes : List (Nat × Nat) := []
deriving DecidableEq, Repr

/-- The commands, in the order of the table. -/
inductive Instr where
  | registerWrite (org : Org) (addr len val : Nat)
  | counterLoRead (org : Org) (addr : Nat)
  | parityScan (b : Blk) (flips : List (Nat × Nat))
  | resetReq (org : Org) (b : Blk) (view val : Nat)
  | lcwAccessRelease
  | arrayCycle (c : CoreRef) (throttle : Bool) (failed : List CheckFail)
  | feederRead (c : CoreRef) (f : Nat)
  | feederBankData (c : CoreRef) (f : Nat)
  | swap (c : CoreRef)
  | drainStart (c : CoreRef)
  | drainComplete (c : CoreRef)
  | loadStart (c : CoreRef)
  | loadComplete (c : CoreRef)
  | arrRelease (org : Org) (c : CoreRef) (val : Nat)
  | arrDump (org : Org) (c : CoreRef) (val : Nat)
  | dumpComplete (c : CoreRef)
  | sctAdvance (org : Org) (c : CoreRef) (val : Nat)
  | rngSeed (org : Org) (c : CoreRef) (val : Nat)
  | transposeTileComplete (c : CoreRef) (buf : Nat)
  | tailWrite (c : CoreRef) (st : Nat)
  | streamEnable (org : Org) (c : CoreRef) (st val : Nat)
  | streamResume (org : Org) (c : CoreRef) (st val : Nat)
  | streamBaseWrite (org : Org) (c : CoreRef) (st val : Nat)
  | wordFetch (c : CoreRef) (st : Nat)
  | wordStart (c : CoreRef) (st : Nat)
  | scoreboardFull (c : CoreRef) (st : Nat)
  | productWord (c : CoreRef)
  | standaloneDrain (c : CoreRef)
  | standaloneLoad (c : CoreRef)
  | vxAdd (c : CoreRef)
  | vxSub (c : CoreRef)
  | vxMul (c : CoreRef)
  | vxFma (c : CoreRef)
  | vxMax (c : CoreRef)
  | vxMin (c : CoreRef)
  | vxCvt (c : CoreRef)
  | vxRsum (c : CoreRef)
  | vxRmax (c : CoreRef)
  | vxRng (c : CoreRef)
  | vxExp (c : CoreRef)
  | vxLog (c : CoreRef)
  | vxRsqrt (c : CoreRef)
  | vxTanh (c : CoreRef)
  | dispatch (c : CoreRef)
  | mvStream (c : CoreRef)
  | tackPut (c : CoreRef)
  | tackGet (c : CoreRef)
  | mvTranspose (c : CoreRef)
  | scLd (c : CoreRef) (st : Nat)
  | scSt (c : CoreRef) (st : Nat)
  | syIncDone (c : CoreRef) (st : Nat)
  | syIncRemoteDone (c : CoreRef) (st : Nat)
  | slotComplete (c : CoreRef) (job : Nat)
  | flagNotice (c : CoreRef)
  | flagWaitTimeout (c : CoreRef) (st : Nat)
  | stitch
  | seamTimeout (ctx : Nat)
  | tickMessage (link : Nat) (t : TickRx) (offset : Int)
  | seamArrivalMessage (link ctx : Nat) (held : Bool)
  | deviceSeamArrival (ctx : Nat)
  | tickSyncEdge (periods : Nat)
  | holdoverEntry (cause : Nat)
  | holdoverExpiry
  | armData (org : Org) (val : Nat)
  | armGo (org : Org) (val : Nat)
  | armCancel (org : Org) (val : Nat)
  | armDiscard (org : Org) (val : Nat)
  | armedPairDelivery (entry k : Nat)
  | missLevelled (org : Org) (val : Nat)
  | lmmScrub (c : CoreRef) (line : Nat) (flaws : List Flaw)
  | nscScrub (d i word : Nat) (flaws : List Flaw)
  | fmcScrub (d i line : Nat) (flaws : List Flaw)
  | eccWriteback (b : Blk)
  | eccWindowEnd (b : Blk)
  | eccInject (org : Org) (b : Blk) (val : Nat)
  | mapoutNext (org : Org) (d i j val : Nat)
  | channelFail (d i j : Nat)
  | hostMemoryRead (fn bar off len : Nat) (flaws : List Flaw)
  | hostMemoryWrite (fn bar off : Nat) (data : List Byte) (ep : Bool)
  | hostConfigRequest (fn off : Nat) (write : Option Nat)
  | streamTransferBegin (d c i : Nat)
  | streamTransferComplete (d c i : Nat)
  | mrkFit (org : Org) (val : Nat)
  | fitting (pat : Pattern)
  | mrkUnbind (org : Org) (val : Nat)
  | mrkRefitNow (org : Org) (val : Nat)
  | refit (ctx : Nat)
  | refitHoldExpiry (ctx : Nat)
  | migration (ctx k : Nat)
  | migrationAbort (ctx k : Nat)
  | meshPacketForward (k : Nat) (flaw : Nat)
  | injectionHoldRelease
  | routerRetire (org : Org) (d r val : Nat)
  | putReceive (a : Arrival)
  | getReceive (a : Arrival) (flaws : List Flaw)
  | addReceive (a : Arrival)
  | casReceive (a : Arrival)
  | flagAddReceive (a : Arrival)
  | putNotifyReceive (a : Arrival)
  | ackReceive (p : Packet)
  | dataReceive (p : Packet)
  | casOldReceive (p : Packet)
  | nackReceive (p : Packet)
  | linkBlockReceive (l : Nat) (b : Block) (fec : FecCount) (fecOk : Bool)
  | packetTransmit (l : Nat)
  | txReservation (l : Nat)
  | linkTrained (l peerDev peerLink peerTorus delay : Nat)
  | laneLockLoss (l : Nat)
  | lnkRetrain (org : Org) (l val : Nat)
  | retrainTimeout (l : Nat)
  | trainingTimeout (l : Nat)
  | violationWindowEnd (l : Nat)
  | flowRelease (org : Org) (val : Nat)
  | flowNoprogress (flow : Nat)
  | mcReserveReceive (p : Packet)
  | mcGrantReceive (p : Packet)
  | mcReserveResend (g : Nat)
  | mcDataInject (g : Nat)
  | mcDataReceive (p : Packet)
  | pressUseSend (ctx e : Nat)
  | pressOwnerRound (ctx e : Nat)
  | verdictContribute (ctx : Nat)
  | verdictBroadcast (ctx : Nat)
  | pressEnable (org : Org) (val : Nat)
  | pressFence (ctx : Nat)
  | digestCompare (ctx d : Nat)
  | pressTrackerAdvance (org : Org) (d val : Nat)
  | captureForward (ctx : Nat)
  | parityGather (ctx j : Nat)
  | snpRestore (org : Org) (val : Nat)
  | snpResume (org : Org) (val : Nat)
  | snpSnap (org : Org) (val : Nat)
  | snapshotComplete (ctx : Nat)
  | snpRelay (org : Org) (val : Nat)
  | snpRebuild (org : Org) (val : Nat)
  | powerEnable
  | powerDisable
  | coldStart (f : BootFindings)
  | bootStepTimeout (step : Nat)
  | trayResetAssert
  | trayResetRelease
  | chipReset (cause : Nat)
  | dieReset (d cause : Nat)
  | clusterReset (d c cause : Nat)
  | coreReset (c : CoreRef) (cause : Nat)
  | contextReset (ctx cause : Nat)
  | engineReset (b : Blk) (cause : Nat)
  | drainLimitExpiry (dom : Dom)
  | resetExit (dom : Dom) (flaws : List (CoreRef × Nat))
  | unitWatchdog (b : Blk)
  | contextResetTimeout (ctx : Nat)
  | engineResetTimeout (b : Blk)
  | fabricTimeout (d : Nat)
  | dieResetTimeout (d : Nat)
  | heartbeat
  | mgmtWatchdogExpiry
  | rstWdogKick (org : Org) (val : Nat)
  | rstCtxReset (org : Org) (val : Nat)
  | fwUpdate (org : Org) (val : Nat)
  | firmwareChunkReceive (c : CoreRef) (chunk : Nat) (data : List Byte) (bad : Bool)
  | sagWarn
  | supplyReset
  | supplyResetRelease
  | overVoltage
  | railWarn (rail mv : Nat)
  | railReset (rail : Nat)
  | tapePeriod (t : TapeInput)
  | tapeRecalibrate
  | throttleAssert
  | throttleDeassert
  | throttleStuck
  | thermalSample (hottest : Nat)
  | ageSample (w : WearReading)
  | ageHourlySummary
  | status (tag : Nat)
  | selfTest (tag fails : Nat)
  | getCerts (tag : Nat)
  | authChallenge (tag : Nat)
  | authResponse (tag role slot : Nat) (key sig : List Byte)
  | authLockoutEnd
  | logout (tag role : Nat)
  | attest (tag : Nat) (nonce : List Byte)
  | random (tag len : Nat) (predict : Bool)
  | verify (tag : Nat) (obj : SignedObj) (use : Nat)
  | installOwner (tag : Nat) (keyHash : List Byte)
  | setUserKey (tag slot : Nat) (key : Option (List Byte))
  | advanceCounter (tag : Nat) (obj : SignedObj) (ctr value : Nat)
  | debugUnlock (tag : Nat)
  | debugLock (tag : Nat)
  | zeroise (tag serial : Nat)
  | logHostCopy
  | logHackWrite (org : Org) (val : Nat)
  | logCtlHash (org : Org) (val : Nat)
  | logCtlSeal (org : Org) (val : Nat)
  | sealComplete (ok : Bool)
  | logFreadRead (org : Org)
  | pfFlr
  | vfFlr (vf : Nat)
  | hostLinkDown
  | hostTlpError (e : TlpError) (fn : Nat) (header : List Nat)
  | completionTimeout (fn : Nat)
  | refclkLoss
  | refclkReturn
  | tickSyncStuck (level : Bool)
  | pinGlitch (pin : Nat)
  | i3cLineStuck (pin : Nat)
  | entdaa (addr : Nat)
  | enec
  | setDevnum (n : Nat)
  | setCap (watts : Nat)
  | getStatus
  | getPower
  | getThermal
  | getAlert
  | getId
  | i3cBadCommand (code : Nat)
  | bypass (code : Nat)
  | idcode
  | samplePreload
  | extest (levels : Nat)
  | dbgreg (addr : Nat) (write : Option Nat)
  | registerRead (org : Org) (addr len : Nat) (flips : List (Nat × Nat))
  | hostCompletion (tag : Nat) (data : List Byte)
  | sagWarnClear
  | blockSend (l : Nat)
  | freeRunningAdvance (c : CoreRef)
  | tapReset
deriving DecidableEq, Repr

end Sys2Proof
end

