-- ==== Sys2Proof/Decode.lean ====
section
/-! DEFINITION. The table's rows have no bits (they are events and accesses of a block, not encodings), so no word spells
a command. -/

namespace Sys2Proof

/-- The command that a word spells by the table's bits: the table gives no row any (DESIGN CHOICE, log entry 14). -/
def decodeTableWord (_nbits _w : Nat) : Option Instr := none

end Sys2Proof
end

