-- ==== Sys2Proof/Machine/Bits.lean ====
section
/-! DEFINITION. Bit fields, byte order and signed readings. Fields are read out of natural numbers, so that every width
is handled by one definition; all byte orders are little-endian (R90, R159). -/

namespace Sys2Proof.Machine

/-- Bits `[lo + len - 1 : lo]` of `n`. -/
def bits (n lo len : Nat) : Nat := (n >>> lo) % 2 ^ len

/-- Bit `i` of `n`. -/
def bit (n i : Nat) : Bool := n.testBit i

/-- `n` with bits `[lo + len - 1 : lo]` replaced by the low `len` bits of `v`. -/
def putBits (n lo len v : Nat) : Nat :=
  n % 2 ^ lo + (v % 2 ^ len) * 2 ^ lo + (n >>> (lo + len)) * 2 ^ (lo + len)

/-- One bit as a number. -/
def b2n (b : Bool) : Nat := if b then 1 else 0

/-- The low `w` bits of `n` read as a two's-complement number. -/
def signed (w n : Nat) : Int :=
  let m := n % 2 ^ w
  if m < 2 ^ (w - 1) then (m : Int) else (m : Int) - (2 ^ w : Nat)

/-- The low `w` bits of an integer (two's complement). -/
def wrap (w : Nat) (i : Int) : Nat := (i % ((2 ^ w : Nat) : Int)).toNat

/-- The bytes of `n`, `k` of them, least significant first. -/
def toBytes : Nat → Nat → List Byte
  | 0, _ => []
  | k + 1, n => BitVec.ofNat 8 n :: toBytes k (n / 256)

/-- The number that bytes spell, least significant first. -/
def ofBytes : List Byte → Nat
  | [] => 0
  | b :: bs => b.toNat + 256 * ofBytes bs

/-- A word with bits `[lo + len - 1 : lo]` replaced. -/
def Word.put (w : Word) (lo len v : Nat) : Word := BitVec.ofNat 32 (putBits w.toNat lo len v)

/-- Bits `[lo + len - 1 : lo]` of a word. -/
def Word.get (w : Word) (lo len : Nat) : Nat := bits w.toNat lo len

/-- Bit `i` of a word. -/
def Word.bit (w : Word) (i : Nat) : Bool := w.getLsbD i

/-- Counts from `lo`, `n` of them. -/
def countFrom (lo n : Nat) : List Nat := (List.range n).map (· + lo)

/-- `⌈a / b⌉`. -/
def ceilDiv (a b : Nat) : Nat := (a + b - 1) / b

/-- `n` kept at or below `m`: a saturating count. -/
def sat (m n : Nat) : Nat := if n ≤ m then n else m

end Sys2Proof.Machine
end

