-- ==== Sys2Proof/Machine/Num.lean ====
section
/-! DEFINITION. Exact binary numbers, the element formats of R70 and R90, and the one rounding step every operation of
the device uses (R74, R84, R92, R93). A finite value is kept exactly, as a mantissa times a power of two. -/

namespace Sys2Proof.Machine

/-- An exact signed value `m * 2 ^ e`. -/
structure Dy where
  m : Int
  e : Int
deriving DecidableEq, Repr

namespace Dy

def zero : Dy := ⟨0, 0⟩

/-- The mantissa of `x` at the exponent `e ≤ x.e`. -/
def alignTo (x : Dy) (e : Int) : Int := x.m * ((2 ^ (x.e - e).toNat : Nat) : Int)

def add (x y : Dy) : Dy :=
  let e := min x.e y.e
  ⟨x.alignTo e + y.alignTo e, e⟩

def neg (x : Dy) : Dy := ⟨-x.m, x.e⟩
def mul (x y : Dy) : Dy := ⟨x.m * y.m, x.e + y.e⟩
def scale (x : Dy) (k : Int) : Dy := ⟨x.m, x.e + k⟩
def isZero (x : Dy) : Bool := x.m == 0

/-- `x < y`. -/
def lt (x y : Dy) : Bool := decide ((x.add y.neg).m < 0)

/-- `⌊log₂ |x|⌋` of a non-zero value. -/
def log2 (x : Dy) : Int := (Nat.log2 x.m.natAbs : Int) + x.e

end Dy

/-- A floating-point value: not a number, an infinity, or a finite value with its sign kept apart for the zeros. -/
inductive FVal where
  | nan
  | inf (neg : Bool)
  | fin (neg : Bool) (m : Nat) (e : Int)
deriving DecidableEq, Repr

/-- The exact value of a finite one (0 otherwise, never used there). -/
def FVal.dy : FVal → Dy
  | .fin neg m e => ⟨if neg then -(m : Int) else m, e⟩
  | _ => .zero

/-- An exact value as a floating-point value; a zero takes the given sign. -/
def FVal.ofDy (zneg : Bool) (x : Dy) : FVal :=
  if x.m = 0 then .fin zneg 0 0 else .fin (decide (x.m < 0)) x.m.natAbs x.e

def FVal.isNeg : FVal → Bool
  | .nan => false
  | .inf n => n
  | .fin n _ _ => n

def FVal.isZero : FVal → Bool
  | .fin _ m _ => m == 0
  | _ => false

/-- How a magnitude between two grid points is rounded: to nearest even, by a 16-bit draw (R93), or toward zero. -/
inductive Rnd where
  | rne
  | stoch (draw : Nat)
  | trunc
deriving DecidableEq, Repr

/-- The magnitude `m * 2 ^ e` in units of `2 ^ q`, rounded. -/
def roundAt (rnd : Rnd) (q : Int) (m : Nat) (e : Int) : Nat :=
  if q ≤ e then m * 2 ^ (e - q).toNat
  else
    let d := (q - e).toNat
    let fl := m >>> d
    let rem := m - fl * 2 ^ d
    let up := match rnd with
      | .rne => decide (2 * rem > 2 ^ d) || (decide (2 * rem = 2 ^ d) && decide (fl % 2 = 1))
      | .stoch r => decide (r < rem * 65536 / 2 ^ d)
      | .trunc => false
    if up then fl + 1 else fl

/-- A binary element format: fraction bits, exponent bits, bias, and how its top codes are used. -/
structure FloatFmt where
  mb : Nat
  eb : Nat
  bias : Nat
  /-- IEEE infinities and NaN (otherwise E4M3's single NaN code, or none) -/
  ieee : Bool
  /-- the all-ones magnitude code is NaN although there are no infinities (E4M3) -/
  nanTop : Bool
  /-- mantissa and exponent of the largest finite value -/
  maxM : Nat
  maxE : Int
deriving DecidableEq, Repr

def fmtBF16 : FloatFmt := ⟨7, 8, 127, true, false, 255, 120⟩
def fmtFP16 : FloatFmt := ⟨10, 5, 15, true, false, 2047, 5⟩
def fmtFP32 : FloatFmt := ⟨23, 8, 127, true, false, 16777215, 104⟩
def fmtE4M3 : FloatFmt := ⟨3, 4, 7, false, true, 7, 6⟩
def fmtE5M2 : FloatFmt := ⟨2, 5, 15, true, false, 7, 13⟩
def fmtE2M1 : FloatFmt := ⟨1, 2, 1, false, false, 3, 1⟩

/-- The value a code stands for (R70, R71: subnormals at their exact value). -/
def FloatFmt.decode (f : FloatFmt) (code : Nat) : FVal :=
  let neg := bit code (f.mb + f.eb)
  let ex := bits code f.mb f.eb
  let fr := bits code 0 f.mb
  let top := 2 ^ f.eb - 1
  if f.ieee && ex == top then (if fr = 0 then .inf neg else .nan)
  else if f.nanTop && ex == top && fr == 2 ^ f.mb - 1 then .nan
  else if ex = 0 then .fin neg fr (1 - (f.bias : Int) - f.mb)
  else .fin neg (fr + 2 ^ f.mb) ((ex : Int) - f.bias - f.mb)

/-- The grid exponent of a non-zero magnitude, the exponent unbounded above (R92). -/
def FloatFmt.grid (f : FloatFmt) (m : Nat) (e : Int) : Int :=
  max ((Nat.log2 m : Int) + e - f.mb) (1 - (f.bias : Int) - f.mb)

/-- A rounded magnitude in units of the grid, and the grid. -/
def FloatFmt.round (f : FloatFmt) (rnd : Rnd) (m : Nat) (e : Int) : Nat × Int :=
  if m = 0 then (0, 1 - (f.bias : Int) - f.mb)
  else let q := f.grid m e; (roundAt rnd q m e, q)

/-- The rounded magnitude exceeds the largest finite value (R92). -/
def FloatFmt.overflows (f : FloatFmt) (n : Nat) (q : Int) : Bool :=
  Dy.lt ⟨f.maxM, f.maxE⟩ ⟨n, q⟩

/-- The code of `n * 2 ^ q` (a value on the grid, not above the largest) with a sign. -/
def FloatFmt.pack (f : FloatFmt) (neg : Bool) (n : Nat) (q : Int) : Nat :=
  b2n neg * 2 ^ (f.mb + f.eb) + ((q + f.mb + f.bias - 1).toNat * 2 ^ f.mb + n)

/-- The code of an infinity. -/
def FloatFmt.infCode (f : FloatFmt) (neg : Bool) : Nat :=
  b2n neg * 2 ^ (f.mb + f.eb) + (2 ^ f.eb - 1) * 2 ^ f.mb

/-- The code of the largest finite value. -/
def FloatFmt.maxCode (f : FloatFmt) (neg : Bool) : Nat :=
  b2n neg * 2 ^ (f.mb + f.eb) +
    (if f.ieee then (2 ^ f.eb - 1) * 2 ^ f.mb - 1
     else if f.nanTop then 2 ^ (f.mb + f.eb) - 2 else 2 ^ (f.mb + f.eb) - 1)

/-- The canonical NaN of an IEEE format: 0x7FC0_0000, 0x7FC0, 0x7E00 (R92). -/
def FloatFmt.nanCode (f : FloatFmt) : Nat :=
  (2 ^ f.eb - 1) * 2 ^ f.mb + 2 ^ (f.mb - 1)

/-- Conversion to an IEEE format: overflow gives an infinity, NaN the canonical one (R92). -/
def FloatFmt.ofFVal (f : FloatFmt) (rnd : Rnd) : FVal → Nat
  | .nan => f.nanCode
  | .inf n => f.infCode n
  | .fin n m e =>
    let r := f.round rnd m e
    if f.overflows r.1 r.2 then f.infCode n else f.pack n r.1 r.2

/-! ### FP32 (R141, R169, R384): one rounding to nearest even, canonical NaN, subnormals kept -/

def f32 (w : Nat) : FVal := fmtFP32.decode w
def toF32 (v : FVal) : Nat := fmtFP32.ofFVal .rne v
def nan32 : Nat := 0x7FC00000

/-- Exact sum as a value: infinities of opposite sign give NaN; an exact zero sum of non-zero terms or of unlike zeros is +0. -/
def FVal.add (x y : FVal) : FVal :=
  match x, y with
  | .nan, _ => .nan
  | _, .nan => .nan
  | .inf a, .inf b => if a = b then .inf a else .nan
  | .inf a, _ => .inf a
  | _, .inf b => .inf b
  | .fin a _ _, .fin b _ _ => FVal.ofDy (a && b) (x.dy.add y.dy)

/-- Exact product as a value (R76: infinity times zero is NaN). -/
def FVal.mul (x y : FVal) : FVal :=
  match x, y with
  | .nan, _ => .nan
  | _, .nan => .nan
  | .inf a, .inf b => .inf (a != b)
  | .inf a, .fin b m _ => if m = 0 then .nan else .inf (a != b)
  | .fin a m _, .inf b => if m = 0 then .nan else .inf (a != b)
  | .fin a m e, .fin b m' e' => .fin (a != b) (m * m') (e + e')

def FVal.negate : FVal → FVal
  | .nan => .nan
  | .inf n => .inf (!n)
  | .fin n m e => .fin (!n) m e

def FVal.abs : FVal → FVal
  | .nan => .nan
  | .inf _ => .inf false
  | .fin _ m e => .fin false m e

/-- Multiplication by `2 ^ k`. -/
def FVal.scale (k : Int) : FVal → FVal
  | .nan => .nan
  | .inf n => .inf n
  | .fin n m e => .fin n m (e + k)

/-- `x < y` for values that are not NaN; the two zeros are equal. -/
def FVal.lt (x y : FVal) : Bool :=
  match x, y with
  | .nan, _ => false
  | _, .nan => false
  | .inf a, .inf b => a && !b
  | .inf a, .fin _ _ _ => a
  | .fin _ _ _, .inf b => !b
  | .fin _ _ _, .fin _ _ _ => x.dy.lt y.dy

def fAdd (a b : Nat) : Nat := toF32 ((f32 a).add (f32 b))
def fNeg (a : Nat) : Nat := toF32 (f32 a).negate
def fSub (a b : Nat) : Nat := toF32 ((f32 a).add (f32 b).negate)
def fMul (a b : Nat) : Nat := toF32 ((f32 a).mul (f32 b))
def fFma (a b c : Nat) : Nat := toF32 (((f32 a).mul (f32 b)).add (f32 c))
def fAbs (a : Nat) : Nat := toF32 (f32 a).abs

/-- `x` is the smaller, with -0 below +0 (R169). -/
def FVal.below (x y : FVal) : Bool :=
  x.lt y || (x.isZero && y.isZero && x.isNeg && !y.isNeg)

def fMax (a b : Nat) : Nat :=
  match f32 a, f32 b with
  | .nan, _ => nan32
  | _, .nan => nan32
  | x, y => if x.below y then b else a

def fMin (a b : Nat) : Nat :=
  match f32 a, f32 b with
  | .nan, _ => nan32
  | _, .nan => nan32
  | x, y => if y.below x then b else a

/-- FP32 less-than (R171 FN 0xE): 0 for NaN, the zeros equal. -/
def fLt (a b : Nat) : Bool := (f32 a).lt (f32 b)

/-- Quotient of two non-zero magnitudes, cut below any rounding position with the remainder kept as a sticky bit. -/
def quotSticky (m m' : Nat) (e : Int) : Nat × Int :=
  let a := m * 2 ^ 96
  let q := a / m'
  (if a % m' = 0 then 2 * q else 2 * q + 1, e - 97)

/-- Correctly rounded division (R384). -/
def fDiv (a b : Nat) : Nat :=
  match f32 a, f32 b with
  | .nan, _ => nan32
  | _, .nan => nan32
  | .inf _, .inf _ => nan32
  | .inf n, y => toF32 (.inf (n != y.isNeg))
  | .fin n _ _, .inf n' => toF32 (.fin (n != n') 0 0)
  | .fin n m e, .fin n' m' e' =>
    if m' = 0 then (if m = 0 then nan32 else toF32 (.inf (n != n')))
    else if m = 0 then toF32 (.fin (n != n') 0 0)
    else let r := quotSticky m m' (e - e'); toF32 (.fin (n != n') r.1 r.2)

/-- The integer square root, bit by bit from `2 ^ k` down. -/
def isqrtFrom : Nat → Nat → Nat → Nat
  | 0, acc, n => if (acc + 1) * (acc + 1) ≤ n then acc + 1 else acc
  | k + 1, acc, n =>
    let t := acc + 2 ^ (k + 1)
    isqrtFrom k (if t * t ≤ n then t else acc) n

def isqrt (n : Nat) : Nat := isqrtFrom (Nat.log2 n / 2 + 1) 0 n

/-- Correctly rounded square root; -0 gives -0, a negative value NaN (R384). -/
def fSqrt (a : Nat) : Nat :=
  match f32 a with
  | .nan => nan32
  | .inf n => if n then nan32 else toF32 (.inf false)
  | .fin n m e =>
    if m = 0 then a
    else if n then nan32
    else
      let odd := e % 2 = 1
      let m' := (if odd then 2 * m else m) * 2 ^ 64
      let e' := (if odd then e - 1 else e) - 64
      let r := isqrt m'
      toF32 (.fin false (if r * r = m' then 2 * r else 2 * r + 1) (e' / 2 - 1))

/-- BF16 sum of R288: exact, rounded once to nearest even. -/
def bf16Add (a b : Nat) : Nat :=
  fmtBF16.ofFVal .rne ((fmtBF16.decode a).add (fmtBF16.decode b))

/-! ### Conversion to the drain forms (R90 to R92) -/

/-- The forms that a conversion can produce one element at a time. -/
inductive ElemForm where
  | f32 | bf16 | fp16 | e4m3 | e5m2 | fp4
deriving DecidableEq, Repr

/-- The element format of a form. -/
def ElemForm.fmt : ElemForm → FloatFmt
  | .f32 => fmtFP32
  | .bf16 => fmtBF16
  | .fp16 => fmtFP16
  | .e4m3 => fmtE4M3
  | .e5m2 => fmtE5M2
  | .fp4 => fmtE2M1

/-- What overflow gives, by the table of R92. -/
def overflowCode (f : ElemForm) (sat4 sat5 neg : Bool) : Nat :=
  match f with
  | .f32 | .bf16 | .fp16 => f.fmt.infCode neg
  | .e5m2 => if sat5 then fmtE5M2.maxCode neg else fmtE5M2.infCode neg
  | .e4m3 => if sat4 then fmtE4M3.maxCode neg else (if neg then 0xFF else 0x7F)
  | .fp4 => fmtE2M1.maxCode neg

/-- What NaN gives, by the table of R92. -/
def nanElem : ElemForm → Nat
  | .f32 => 0x7FC00000
  | .bf16 => 0x7FC0
  | .fp16 => 0x7E00
  | .e5m2 => 0x7E
  | .e4m3 => 0x7F
  | .fp4 => 0

/-- One element converted (R92), its rounding given. -/
def convElem (f : ElemForm) (sat4 sat5 : Bool) (rnd : Rnd) : FVal → Nat
  | .nan => nanElem f
  | .inf n => overflowCode f sat4 sat5 n
  | .fin n m e =>
    let r := f.fmt.round rnd m e
    if f.fmt.overflows r.1 r.2 then overflowCode f sat4 sat5 n else f.fmt.pack n r.1 r.2

/-- One element of an MX block with scale `X`: the value over `2 ^ (X - 127)`, saturating (R91, R92). -/
def mxElem (f : FloatFmt) (rnd : Rnd) (x : Nat) : FVal → Nat
  | .nan => 0
  | .inf _ => 0
  | .fin n m e =>
    let r := f.round rnd m (e - ((x : Int) - 127))
    if f.overflows r.1 r.2 then f.maxCode n else f.pack n r.1 r.2

/-- `emax` of R136: 8 for E4M3, 15 for E5M2, 2 for FP4, 15 for FP16 (codes 0 to 3 of SCT_CFG.FMT). -/
def emaxOf : Nat → Int
  | 0 => 8
  | 1 => 15
  | 2 => 2
  | _ => 15

def clampInt (lo hi x : Int) : Int := if x < lo then lo else if hi < x then hi else x

/-- The scale of an MX block (R138). -/
def mxScale (emax : Int) (vs : List FVal) : Nat :=
  if vs.any (fun v => match v with | .fin _ _ _ => false | _ => true) then 0xFF
  else
    let a := vs.foldl (fun a v => if a.lt ⟨v.dy.m.natAbs, v.dy.e⟩ then ⟨v.dy.m.natAbs, v.dy.e⟩ else a) Dy.zero
    if a.isZero then 0 else (clampInt 0 254 (a.log2 - emax + 127)).toNat

/-- FP32 by truncation toward zero, finite magnitudes held at the largest finite value (R135). -/
def truncMag32 (v : FVal) : Nat :=
  match v with
  | .nan => nan32
  | .inf _ => 0x7F800000
  | .fin _ m e =>
    let r := fmtFP32.round .trunc m e
    if fmtFP32.overflows r.1 r.2 then fmtFP32.maxCode false else fmtFP32.pack false r.1 r.2

end Sys2Proof.Machine
end

