-- ==== Sys2Proof/Machine/Esf.lean ====
section
/-! DEFINITION. The Exact Sum Format (R358 to R360), its wire forms (R364 to R366) and its one rounding (R367). -/

namespace Sys2Proof.Machine

/-- An ESF element: V as a 288-bit number and the flag byte. -/
structure Esf where
  v : Nat
  f : Nat
deriving DecidableEq, Repr

def Esf.zero : Esf := ⟨0, 0⟩

/-- The 40 bytes of an element (R358). -/
def Esf.bytes (e : Esf) : List Byte := toBytes 36 e.v ++ toBytes 4 (e.f % 256)
def Esf.ofBytes (bs : List Byte) : Esf := ⟨Machine.ofBytes (bs.take 36), Machine.ofBytes ((bs.drop 36).take 1)⟩

/-- V as a signed number. -/
def Esf.int (e : Esf) : Int := signed 288 e.v

/-- The elements of a payload. -/
def esfList : Nat → List Byte → List Esf
  | 0, _ => []
  | n + 1, bs => Esf.ofBytes (bs.take 40) :: esfList n (bs.drop 40)

/-- Widening a BF16 value (R359). -/
def Esf.widen (x : Nat) : Esf :=
  let m := bits x 0 7
  let e := bits x 7 8
  if e = 255 then (if m ≠ 0 then ⟨0, 1⟩ else if bit x 15 then ⟨0, 4⟩ else ⟨0, 2⟩)
  else
    let v := if e = 0 then m else (128 + m) * 2 ^ (e - 1)
    ⟨if bit x 15 then wrap 288 (-(v : Int)) else v, 0⟩

/-- Addition (R360). -/
def Esf.add (a b : Esf) : Esf := ⟨(a.v + b.v) % 2 ^ 288, a.f ||| b.f⟩

/-- The rounding of the owner (R367). -/
def Esf.round (e : Esf) : Nat :=
  if bit e.f 0 || (bit e.f 1 && bit e.f 2) then 0x7FC0
  else if bit e.f 1 then 0x7F80
  else if bit e.f 2 then 0xFF80
  else if e.v = 0 then 0
  else fmtBF16.ofFVal .rne (FVal.ofDy false ⟨e.int, -133⟩)

/-- The bucket is non-finite by this element (R367). -/
def Esf.nonfinite (e : Esf) : Bool := bits e.round 7 8 == 255

/-! ### Wire forms -/

/-- The BF16 code that an element narrows to exactly, if it does (R364). -/
def Esf.narrow (e : Esf) : Option Nat :=
  if e.f = 0 then
    let r := e.round
    if Esf.widen r = e then some r else none
  else if e.v = 0 then
    (if e.f = 1 then some 0x7FC0 else if e.f = 2 then some 0x7F80 else if e.f = 4 then some 0xFF80 else none)
  else none

/-- The limb counts of EPE (R365). -/
def limbTable : List Nat := [1, 2, 3, 4, 6, 9, 12, 18]

/-- Element V is the sign extension of limbs `b` to `t`. -/
def limbsHold (v b t : Nat) : Bool := wrap 288 (signed (16 * (t + 1 - b)) (v / 2 ^ (16 * b)) * ((2 ^ (16 * b) : Nat) : Int)) == v

/-- The frame of a block (R366): B and the index into the limb table. -/
def frameOf (vs : List Nat) : Nat × Nat :=
  if vs.all (· == 0) then (0, 0)
  else
    let b := ((List.range 18).find? fun i => vs.any fun v => bits v (16 * i) 16 != 0).getD 0
    let t := ((List.range 18).find? fun i => decide (b ≤ i) && vs.all fun v => limbsHold v b i).getD 17
    let lc := ((List.range 8).find? fun i => decide (t + 1 - b ≤ (limbTable[i]?).getD 18)).getD 7
    let l := (limbTable[lc]?).getD 18
    (if 18 < b + l then 18 - l else b, lc)

/-- One block's frame byte and data. -/
def blockEnc (es : List Esf) : Nat × List Byte :=
  if es.any fun e => e.f != 0 then
    (31 * 8 + 7, es.flatMap (fun e => toBytes 36 e.v) ++ es.map fun e => BitVec.ofNat 8 e.f)
  else
    let fr := frameOf (es.map (·.v))
    let l := (limbTable[fr.2]?).getD 18
    (fr.1 * 8 + fr.2, es.flatMap fun e => toBytes (2 * l) (e.v / 2 ^ (16 * fr.1)))

/-- Blocks of 32 elements. -/
def blocksOf : Nat → List Esf → List (List Esf)
  | 0, _ => []
  | n + 1, es => if es.isEmpty then [] else es.take 32 :: blocksOf n (es.drop 32)

/-- The wire payload of an ESF payload (R364). -/
def wireEnc (data : List Byte) : List Byte :=
  let es := esfList (data.length / 40) data
  match es.foldr (fun e r => match e.narrow, r with | some x, some l => some (x :: l) | _, _ => none) (some []) with
  | some xs => toBytes 8 (1 + (es.length - 1) * 256) ++ xs.flatMap (toBytes 2)
  | none =>
    let bs := (blocksOf 4 es).map blockEnc
    toBytes 8 (2 + (es.length - 1) * 256) ++ (List.range 4).map (fun i => BitVec.ofNat 8 ((bs[i]?).map (·.1) |>.getD 0)) ++
      bs.flatMap (·.2)

/-- One element of a block restored from its limbs. -/
def limbDec (b l : Nat) (bs : List Byte) : Nat :=
  wrap 288 (signed (16 * l) (ofBytes (bs.take (2 * l))) * ((2 ^ (16 * b) : Nat) : Int))

/-- The elements of a block, `n` of them. -/
def elemsDec (b l : Nat) : Nat → List Byte → List Nat
  | 0, _ => []
  | n + 1, bs => limbDec b l bs :: elemsDec b l n (bs.drop (2 * l))

/-- Blocks restored, or none where a frame is reserved or the length disagrees (R366). -/
def blocksDec : List Byte → Nat → List Byte → Option (List Esf)
  | [], n, bs => if n = 0 && bs.isEmpty then some [] else none
  | fb :: fs, n, bs =>
    let f := fb.toNat
    let b := f / 8
    let l := (limbTable[f % 8]?).getD 18
    let k := min n 32
    if n = 0 then (if f = 0 then blocksDec fs 0 bs else none)
    else if b = 31 then
      if f % 8 != 7 || decide (bs.length < 37 * k) then none
      else
        let vs := elemsDec 0 18 k bs
        let gs := (bs.drop (36 * k)).take k
        if gs.any fun g => bits g.toNat 3 5 != 0 then none
        else (blocksDec fs (n - k) (bs.drop (37 * k))).map fun r => (vs.zip gs).map (fun p => ⟨p.1, p.2.toNat⟩) ++ r
    else if 18 < b + l || decide (bs.length < 2 * l * k) then none
    else (blocksDec fs (n - k) (bs.drop (2 * l * k))).map fun r => (elemsDec b l k bs).map (fun v => ⟨v, 0⟩) ++ r

/-- BF16 codes of a payload. -/
def bf16List : Nat → List Byte → List Nat
  | 0, _ => []
  | n + 1, bs => ofBytes (bs.take 2) :: bf16List n (bs.drop 2)

/-- The ESF payload that a wire payload restores to (R364 to R366). -/
def wireDec (w : List Byte) : Option (List Byte) :=
  let pre := ofBytes (w.take 8)
  let n := bits pre 8 7 + 1
  let body := w.drop 8
  if decide (w.length < 8) || bits pre 15 49 != 0 || decide (102 < n) then none
  else match bits pre 0 8 with
    | 1 => if body.length = 2 * n then some ((bf16List n body).flatMap fun x => (Esf.widen x).bytes) else none
    | 2 =>
      if body.length < 4 then none
      else (blocksDec (body.take 4) n (body.drop 4)).map fun es => es.flatMap Esf.bytes
    | _ => none

end Sys2Proof.Machine
end

