-- ==== Sys2Proof/Config.lean ====
section
/-! DEFINITION. What the spec leaves open. A constant here has no body, so nothing can be proved of its value: what it
stands for may be any value (log entries 6, 12, 13). -/

namespace Sys2Proof.Config

/-- A free value, one for each number: the state's counter `free` gives a fresh number to each use. -/
opaque freeValue : Nat → Word

/-- Which of the values within the stated bound a transcendental operation returns for an input (R169). -/
opaque transcendental : Nat → Word → Word

/-- The result of a transcendental operation at an input for which the spec states none (R169). -/
opaque transcendentalOpen : Nat → Word → Word

/-- Which up link of a bundle the device before this one has chosen for a scheduled flow that comes over it (R259, R313). -/
opaque arrivalLink : Nat → Nat → Nat

/-- Milliseconds that holdover has lasted (R198, R218), by the Stitch and the cycle in it: the model keeps no wall clock. -/
opaque holdoverMs : Nat → Nat → Nat

/-- The CRC-32C of a link block, whose bit order the spec does not state (R306). -/
opaque blockCrc : List Byte → Word

/-- Ed448 verification of a message by a public key and a signature (R477, R473): the algorithm is cited, not restated. -/
opaque ed448Verify : List Byte → List Byte → List Byte → Bool

/-- The public key in the device certificate (R476), whose X.509 form is cited, not restated. -/
opaque certKey : List Byte → List Byte

/-- The Ed448 signature of a message by the device's key (R480). -/
opaque ed448Sign : List Byte → List Byte → List Byte

/-- The random bit generator of SP 800-90A (R481): byte `i` of the output with a count of uses. -/
opaque drbg : Nat → Nat → Byte

/-- A dword of configuration space that PCI Express defines and the spec does not restate (R502): by its place, the value written there last,
the AER status of the function and the headers it has logged, and a fresh number for each read. -/
opaque cfgSpace : Nat → Nat → Nat → List Nat → Nat → Word

/-- The Resizable BAR control of the PF (R502, R503): the size of BAR4 as a power of two that a write of a value to a place of configuration
space sets, where the place is the control's. PCI Express defines the place; the spec does not restate it. -/
opaque bar4Write : Nat → Nat → Option Nat

end Sys2Proof.Config
end

