-- ==== Sys2Proof/Machine/Keccak.lean ====
section
/-! DEFINITION. SHAKE256 (FIPS 202, cited by R471), over 25 lanes of 64 bits. The digests of R394, R432, R442, R466, R473,
R478 and R489 are formed with it. -/

namespace Sys2Proof.Machine.Keccak

abbrev Lane := BitVec 64

/-- Lane `i` of a state of 25. -/
def lane (s : List Lane) (i : Nat) : Lane := (s[i]?).getD 0#64

/-- The rotation offsets of ρ, at index `x + 5 y`. -/
def rho : List Nat :=
  [0, 1, 62, 28, 27, 36, 44, 6, 55, 20, 3, 10, 43, 25, 39, 41, 45, 15, 21, 8, 18, 2, 61, 56, 14]

/-- The round constants of ι. -/
def rc : List Lane :=
  [0x0000000000000001#64, 0x0000000000008082#64, 0x800000000000808A#64, 0x8000000080008000#64,
   0x000000000000808B#64, 0x0000000080000001#64, 0x8000000080008081#64, 0x8000000000008009#64,
   0x000000000000008A#64, 0x0000000000000088#64, 0x0000000080008009#64, 0x000000008000000A#64] ++
  [0x000000008000808B#64, 0x800000000000008B#64, 0x8000000000008089#64, 0x8000000000008003#64,
   0x8000000000008002#64, 0x8000000000000080#64, 0x000000000000800A#64, 0x800000008000000A#64,
   0x8000000080008081#64, 0x8000000000008080#64, 0x0000000080000001#64, 0x8000000080008008#64]

def theta (s : List Lane) : List Lane :=
  let c := (List.range 5).map fun x =>
    lane s x ^^^ lane s (x + 5) ^^^ lane s (x + 10) ^^^ lane s (x + 15) ^^^ lane s (x + 20)
  (List.range 25).map fun i =>
    lane s i ^^^ lane c ((i % 5 + 4) % 5) ^^^ (lane c ((i % 5 + 1) % 5)).rotateLeft 1

/-- ρ and π together: position `(x, y)` takes the rotated lane of `(x + 3 y, x)`. -/
def rhoPi (s : List Lane) : List Lane :=
  (List.range 25).map fun i =>
    let x := i % 5
    let y := i / 5
    let j := (x + 3 * y) % 5 + 5 * x
    (lane s j).rotateLeft ((rho[j]?).getD 0)

def chi (s : List Lane) : List Lane :=
  (List.range 25).map fun i =>
    let r := 5 * (i / 5)
    lane s i ^^^ (~~~ lane s (r + (i % 5 + 1) % 5) &&& lane s (r + (i % 5 + 2) % 5))

def round (s : List Lane) (k : Lane) : List Lane :=
  match chi (rhoPi (theta s)) with
  | [] => []
  | a :: t => (a ^^^ k) :: t

def permute (s : List Lane) : List Lane := rc.foldl round s

/-- Eight bytes as a lane. -/
def laneOf (bs : List Byte) : Lane := BitVec.ofNat 64 (ofBytes (bs.take 8))

/-- One block of 136 bytes xored into the state. -/
def absorb (s : List Lane) (blk : List Byte) : List Lane :=
  permute ((List.range 25).map fun i =>
    if i < 17 then lane s i ^^^ laneOf (blk.drop (8 * i)) else lane s i)

/-- The padding of SHAKE: 0x1F, zeros, and 0x80 in the last byte of the block. -/
def pad (n : Nat) : List Byte :=
  let r := 135 - n % 136
  if r = 0 then [0x9F#8] else 0x1F#8 :: (List.replicate (r - 1) 0#8 ++ [0x80#8])

/-- Absorb `k` blocks. -/
def absorbAll : Nat → List Lane → List Byte → List Lane
  | 0, s, _ => s
  | k + 1, s, bs => absorbAll k (absorb s (bs.take 136)) (bs.drop 136)

/-- Squeeze `k` blocks. -/
def squeeze : Nat → List Lane → List Byte
  | 0, _ => []
  | k + 1, s => (s.take 17).flatMap (fun l => toBytes 8 l.toNat) ++ squeeze k (permute s)

/-- SHAKE256 of `m` with `n` bytes of output. -/
def shake256 (m : List Byte) (n : Nat) : List Byte :=
  let p := m ++ pad m.length
  (squeeze (ceilDiv n 136) (absorbAll (p.length / 136) (List.replicate 25 0#64) p)).take n

end Sys2Proof.Machine.Keccak
end

