-- ==== Sys2Proof/Machine/CoreTypes.lean ====
section
/-! DEFINITION. What a core holds beside its registers: accumulator sets, the array's pipeline, feeders and drains, the
sequencer's slot queues, scoreboard and streams, and the tack unit. -/

namespace Sys2Proof.Machine

/-- One accumulator set's part of a cell: sum, compensation and the residue sticky bits (R85, R96). -/
structure Cell where
  s : Word := 0
  c : BitVec 16 := 0
  arith : Bool := false
  shift : Bool := false
deriving DecidableEq, Repr

/-- An accumulator set (R85): tag 0 EMPTY, 1 FLOAT, 2 INT. An unlisted cell is all zero; a cell (i, j) has key 128i + j
(DEDUCED, log entry 36). -/
structure AccSet where
  cells : List (Nat × Cell) := []
  tag : Nat := 0
  wrap : Bool := false
  quar : Bool := false
  /-- cells loaded from poisoned bytes, whose drain carries the poison onward (R234) -/
  bad : List Nat := []
deriving DecidableEq, Repr

/-- The DR slot (R167). -/
structure DrSlot where
  op : Nat := 0
  form : Nat := 0
  rnd : Nat := 0
  clear : Bool := false
  colblk : Bool := false
  trk : Nat := 0
  record : Bool := false
  advance : Bool := false
  apply : Bool := false
  addr : Nat := 0
  flag : Nat := 0
  flagEn : Bool := false
deriving DecidableEq, Repr

/-- A loop level of a descriptor set (R114): count, role (true: K-side), window code and stride. -/
structure Level where
  count : Nat
  kside : Bool
  win : Nat
  stride : Int
deriving DecidableEq, Repr

/-- A window of a descriptor set (R115). -/
structure Window where
  extent : Nat
  outMul : Nat
  inMul : Nat
  pad : Nat
  stride : Int
deriving DecidableEq, Repr

/-- A descriptor set as a feeder latches it (R114 to R118, R147). -/
structure Desc where
  base : Nat
  fmt : Nat
  sparse : Bool
  occEn : Bool
  metaBase : Nat
  metaPitch : Nat
  scaleBase : Nat
  scalePitch : Nat
  occBase : Nat
  occPitch : Nat
  levels : List Level
  windows : List Window
deriving DecidableEq, Repr

/-- A product word's MX, FA, FB and DR slots (R164, R166, R167); `m` is M_eff (R183). -/
structure Prod where
  fmtA : Nat
  fmtB : Nat
  m : Nat
  n : Nat
  k : Nat
  start : Bool
  last : Bool
  quarter : Bool
  map : Nat
  spA : Bool
  spB : Bool
  setA : Nat
  baseA : Option Nat
  setB : Nat
  baseB : Option Nat
  acc : Nat
  dr : DrSlot
deriving DecidableEq, Repr

/-- The operands of one line in a slice: K index and value. -/
abbrev LineOps := List (Nat × FVal)

/-- A slice in a feeder (R113): its pass, its number in the pass, and the operands of each line that has any. -/
structure Slice where
  pass : Nat
  t : Nat
  lines : List (Nat × LineOps)
deriving DecidableEq, Repr

/-- A feeder during a product (R524): the place of the next slice to read, complete slices, reads in flight. -/
structure Feed where
  pass : Nat := 0
  t : Nat := 0
  buf : List Slice := []
  fly : List Slice := []
  fault : Bool := false
  /-- poisoned data has been read: the feeder holds its slice back (R236) -/
  held : Bool := false
deriving DecidableEq, Repr

/-- A slice in the skew pipeline (R122): its age in unfrozen cycles since it was presented, and the set it goes to. -/
structure PipeEnt where
  age : Nat
  set : Nat
  start : Bool
  int : Bool
  fp32 : Bool
  quarter : Bool
  a : List (Nat × LineOps)
  b : List (Nat × LineOps)
deriving DecidableEq, Repr

/-- A drain, waiting or running (R128). `toAcc`: into the accumulator store in the form of R131. -/
structure DrainJob where
  set : Nat
  dr : DrSlot
  dest : Nat
  toAcc : Bool
  int : Bool
  rows : Nat
  cols : Nat
  quarter : Bool
  /-- unfrozen cycles since the pass's last slice was presented; 12 for a standalone drain -/
  age : Nat
  job : Nat
  stream : Nat
  /-- the drain's reads have begun: the bytes it writes, each poisoned or not -/
  out : Option (List (Byte × Bool)) := none
deriving DecidableEq, Repr

/-- A load of the shadow set (R88, R131). -/
structure LoadJob where
  form : Nat
  addr : Nat
  fromAcc : Bool
  int : Bool
  quarter : Bool
  job : Nat
  stream : Nat
  running : Bool
deriving DecidableEq, Repr

/-- A product in execution (R130). `pass` and `t` stand at the array edge. -/
structure ProdExec where
  job : Nat
  stream : Nat
  p : Prod
  da : Option Desc := none
  db : Option Desc := none
  mapBase : Nat := 0
  mapPitch : Nat := 0
  pass : Nat := 0
  t : Nat := 0
  part : Nat := 0
  swapped : Bool := false
  loadAsked : Bool := false
  started : Bool := false
  /-- the pass continues in the active set (R131) -/
  cont : Bool := false
  fa : Feed := {}
  fb : Feed := {}
  /-- decisions of R118 and R119 taken so far: (pass, K block) and the quadrants that run -/
  kdec : List ((Nat × Nat) × Nat) := []
deriving DecidableEq, Repr

/-- A dump request of ARR_QUAR (R110): sets still to dump, the dump in progress, and the releases that follow. -/
structure DumpSt where
  todo : List Nat := []
  busy : Bool := false
  addr : Nat := 0
  releases : List Nat := []
  /-- what later writes ask for: dumps, their address, releases -/
  later : List (List Nat × Nat × List Nat) := []
deriving DecidableEq, Repr

/-- The array of a matrix core (R85, R99, R106). -/
structure ArrSt where
  set0 : AccSet := {}
  set1 : AccSet := {}
  active : Nat := 0
  /-- the repair table in use: excluded physical rows and columns, and whether an entry was bad (R99, R108) -/
  exRows : List Nat := []
  exCols : List Nat := []
  badEntry : Bool := false
  /-- FMT_A, FMT_B, SPARSE_A, SPARSE_B, QUARTER of the current or most recent product (R106) -/
  fmtA : Nat := 0
  fmtB : Nat := 0
  spA : Bool := false
  spB : Bool := false
  quarter : Bool := false
  prod : Option ProdExec := none
  pipe : List PipeEnt := []
  drains : List DrainJob := []
  /-- a product that continues in the active set and does not drain: its job and the cycles since its last slice -/
  tails : List (Nat × Nat) := []
  load : Option LoadJob := none
  dump : DumpSt := {}
  /-- the accumulator store that the previous product left without LAST (R131) -/
  contStore : Option Nat := none
deriving DecidableEq, Repr

/-- A region of the scoreboard (R172), rounded outward to 256 bytes. -/
structure Region where
  lo : Nat
  hi : Nat
  write : Bool
deriving DecidableEq, Repr

/-- A stream descriptor (R239). -/
structure StrDesc where
  src : Nat
  dst : Nat
  run : Nat
  cnt : List Nat
  flag : Nat
  flagEn : Bool
  notify : Bool
  flow : Nat
  sstr : List Int
  dstr : List Int
  op : Nat
  atype : Nat
  vmode : Nat
  vrec : Nat
  /-- a reserved bit or field value is set (cause 1 of R241) -/
  bad : Bool
deriving DecidableEq, Repr

/-- What a queued slot does (R163 to R171). -/
inductive Work where
  | product (p : Prod)
  | drain (d : DrSlot)
  | load (d : DrSlot)
  | vx (op fmt rnd dst src1 src2 rows : Nat)
  | stream (engine desc : Nat) (d : Option StrDesc)
  | tackPut (addr loc len : Nat) (flagEn notify : Bool) (flag : Nat)
  | tackGet (addr loc len : Nat) (flagEn : Bool) (flag : Nat)
  | transpose (buf rows cols src dst spitch dpitch : Nat) (flagEn : Bool) (flag : Nat)
  | ld (reg addr : Nat)
  | st (reg addr : Nat)
deriving DecidableEq, Repr

/-- The phase of a started slot: waiting in its unit's queue, running, or with its last access done. -/
inductive JobPhase where
  | queued | running | done
deriving DecidableEq, Repr

/-- A started slot (R162, R172): its word's number and stream, its slot position, its regions. -/
structure Job where
  id : Nat
  word : Nat
  stream : Nat
  slot : Nat
  work : Work
  regions : List Region
  phase : JobPhase := .queued
deriving DecidableEq, Repr

/-- A flag update that waits for its word (R177): for SC to act, or for the word's slots to complete. -/
structure SyUpd where
  word : Nat
  stream : Nat
  flag : Nat
  inc : Nat
  /-- the S register that holds the device, for the REMOTE forms -/
  remote : Option Nat
  /-- DONE form -/
  done : Bool
  /-- withheld because a slot of the word was refused or NACKed (R243) -/
  withheld : Bool := false
deriving DecidableEq, Repr

/-- A wait that holds a stream (R177, R178). -/
structure WaitSt where
  flag : Nat
  target : Nat
  value : Nat
  ready : Bool
deriving DecidableEq, Repr

/-- A command stream beside its registers (R153 to R157). -/
structure StreamSt where
  /-- 64-byte lines fetched: line number in the ring positions, and the bytes fetched, each poisoned or not -/
  lines : List (Nat × List (Byte × Bool)) := []
  wait : Option WaitSt := none
  /-- the breakpoints are not tested against the word at HEAD again (R184) -/
  breakPass : Bool := false
  /-- arrived at the seam barrier (R206) -/
  seam : Bool := false
  /-- the word at HEAD has latched SCOREBOARD_FULL (R175) -/
  sbFull : Bool := false
  /-- no further word starts: the context has been stopped (R205) -/
  halted : Bool := false
  /-- FLAG_WAIT_TIMEOUT has latched since the last Stitch (R272) -/
  timedOut : Bool := false
  /-- stopped for a ring or tail word that R190 does not accept -/
  misplaced : Bool := false
deriving DecidableEq, Repr

/-- A core beside its registers and local memory. -/
structure CoreSt where
  arr : ArrSt := {}
  jobs : List Job := []
  nextJob : Nat := 0
  nextWord : Nat := 0
  upds : List SyUpd := []
  streams : List StreamSt := List.replicate 8 {}
  /-- the stream that last started a word (R154) -/
  last : Nat := 7
  /-- flags whose update notices are on their way to the core (R226) -/
  notices : List Nat := []
  /-- lane keys: none seeded since reset, or the seed (R142) -/
  seed : Option Nat := none
  /-- lane counters, as an offset for each lane from a common count (R142, R143) -/
  ctrAll : Nat := 0
  ctr : List (Nat × Nat) := []
  /-- firmware chunks held with matching hashes (R443) -/
  chunks : List Nat := []
  /-- the core waits in reset until its firmware is verified (R443, R444) -/
  fwWait : Bool := false
deriving DecidableEq, Repr

end Sys2Proof.Machine
end

