-- ==== Sys2Proof/Machine/NetTypes.lean ====
section
/-! DEFINITION. What the mesh, the links, the flow contexts and the stream engines hold beside their registers. -/

namespace Sys2Proof.Machine

/-- What the Press of a context has sent (R362, R369, R370, R395): a contribution, a stage-2 partial to a rank, a flag's update, the
verdict's contribution, a verdict or verdict-arrival flag, a die's digest, the flag after it. -/
inductive PressOp where
  | contrib
  | partial_ (rank : Nat)
  | flag
  | verdict
  | verdictFlag
  | digest (die : Nat)
  | digestFlag
deriving DecidableEq, Repr

/-- What the Baste of a context has sent (R402, R409 to R414): a record's mirror, a done-table slot, a chunk of a ring member, a rebuilt
chunk, a source's shard-table address, its shard table from an offset, a piece of a part, the record, and the relay's reads and writes. -/
inductive BasteOp where
  | mirror
  | slot
  | chunk (j : Nat)
  | rebuilt
  | svc (src : Nat)
  | shard (src off : Nat)
  | part (src p : Nat)
  | record
  | relayGet
  | relayPut
deriving DecidableEq, Repr

/-- Who issued a request, and what its response is for. -/
inductive Issuer where
  /-- management firmware and units whose requests need no answer -/
  | mgmt
  /-- a tack slot (R170) -/
  | tack (c : CoreRef) (job : Nat)
  /-- an SY update sent to another device (R177) or the flag update of a predicated slot (R182): stream, word and slot -/
  | sync (c : CoreRef) (stream word slot : Nat)
  /-- a stream engine's read for a piece of a transfer: the destination address of the piece, and whether it is the last -/
  | fetch (d c i xfer dst : Nat) (last : Bool)
  /-- a stream engine's write -/
  | store (d c i xfer : Nat)
  /-- a member's copy of a multicast (R320) -/
  | mcast (g member : Nat)
  /-- the Press of a context: bucket entry and what was sent -/
  | press (ctx entry : Nat) (op : PressOp)
  /-- the Baste of a die for a context: what was sent, and the local global address a read's data goes to -/
  | baste (ctx die : Nat) (op : BasteOp) (dst : Nat)
  /-- an array's dump of a quarantined set to another device (R110) -/
  | dump (c : CoreRef)
  /-- a core's pull of a firmware chunk, and how many have been made of it (R443) -/
  | firmware (c : CoreRef) (chunk tries : Nat)
deriving DecidableEq, Repr

/-- An outstanding request (R312, R316). -/
structure Req where
  tag : Nat
  by_ : Issuer
  op : Op
  addr : Nat
  bytes : Nat
  /-- the flow context it travels on, when it leaves the device, and its SEQ there -/
  flow : Option Nat := none
  seq : Nat := 0
deriving DecidableEq, Repr

/-- Space granted in a link's transmit buffer (R312): the packet, the flits charged to its VC's dedicated space and to the shared pool,
and the bundle where its group's tree says so. -/
structure TxEnt where
  pkt : Packet
  ded : Nat := 0
  shr : Nat := 0
  hop : Option (Nat × Nat) := none
deriving DecidableEq, Repr

/-- Where a packet in the mesh goes: to the unit its address or tag names, or out over a link. -/
inductive Goal where
  | unit
  | link (l : Nat)
deriving DecidableEq, Repr

/-- A packet in the mesh: where it stands and where it goes, in package order 16 y + x (R280, R282). -/
structure MeshPkt where
  a : Arrival
  at_ : Nat
  dst : Nat
  goal : Goal
  bank : Nat
  escape : Bool := false
  /-- the transmit space it holds, for a packet bound for a link (R312) -/
  space : Option TxEnt := none
deriving DecidableEq, Repr

/-- A packet that waits for space in a link's transmit buffer (R312). -/
structure Resv where
  pkt : Packet
  /-- the link it arrived over, when it is passing through, and the receive flits it holds there: dedicated and shared -/
  from_ : Option (Nat × Nat × Nat) := none
  /-- the router at which it enters the mesh -/
  entry : Nat
  /-- the bundle it takes, where the tree of its group says so: axis and side (0 plus, 1 minus) -/
  hop : Option (Nat × Nat) := none
deriving DecidableEq, Repr

/-- A threshold of a flow that LANDED has not reached (R293, R294): TOTAL and the flag to advance. -/
structure Threshold where
  total : Nat
  flag : Option Nat
deriving DecidableEq, Repr

/-- A flow context beside its FAB registers (R292, R316, R317, R324). -/
structure FlowSt where
  seq : Nat := 0
  low : Nat := 0
  /-- requests answered above LOW -/
  answered : List Nat := []
  totals : List Threshold := []
  viol : Nat := 0
  /-- requests that wait for the window, oldest first -/
  held : List (Issuer × Packet) := []
  /-- the class the flow carries (R309) -/
  cls : Nat := 1
  /-- the link that fitting chose for its scheduled traffic (R313) -/
  link : Option Nat := none
deriving DecidableEq, Repr

/-- A logical flow bound in a context (R256): its number, its flow context here, and its ends. -/
structure FlowBind where
  ctx : Nat
  n : Nat
  phys : Nat
  srcTy : Nat
  srcCore : Nat
  srcDev : Nat
  dstTy : Nat
  dstCore : Nat
  dstDev : Nat
deriving DecidableEq, Repr

/-- A multicast transfer (R320): its offset in the group's region, its data, and the Press entry it is for (none: the verdict). -/
structure McXfer where
  off : Nat
  data : List Byte
  ctx : Nat
  ent : Option Nat
deriving DecidableEq, Repr

/-- A reduction group of a context (R357). -/
structure RedSt where
  ctx : Nat
  n : Nat
  /-- device, accumulator region base and flow context of each member -/
  members : List (Nat × Nat × Nat)
  mc : Nat
deriving DecidableEq, Repr

/-- A multicast group of a context (R319, R320). -/
structure GroupSt where
  ctx : Nat
  n : Nat
  source : Nat
  /-- device, base address and flow context of each member -/
  members : List (Nat × Nat × Nat)
  /-- at the source: transfers to do; the first is in progress once reserved -/
  todo : List McXfer := []
  asked : Bool := false
  /-- members that have granted -/
  granted : List Nat := []
  /-- the data of the transfer in progress has been injected -/
  injected : Bool := false
  /-- MULTICAST_HOLD has been latched for the transfer in progress -/
  held : Bool := false
  /-- SEQ of the transfer in progress -/
  seq : Nat := 0
  /-- at a member: the window is reserved for a transfer not yet landed, and a reservation that waits for it -/
  reserved : Bool := false
  /-- bytes of that transfer still to land -/
  left : Nat := 0
  waiting : Option Packet := none
deriving DecidableEq, Repr

/-- A link port beside its registers (R303 to R307, R311, R325). -/
structure LinkSt where
  /-- packets in the transmit buffer, in order -/
  tx : List TxEnt := []
  /-- packets granted space that are still on their way through the mesh -/
  coming : List TxEnt := []
  /-- data units of packets started that have not been sent -/
  units : List DataUnit := []
  /-- next BSEQ to send, and the retry buffer, oldest first -/
  bseq : Nat := 0
  retry : List Block := []
  /-- blocks to be sent again -/
  replay : List Block := []
  /-- a replay has been asked for, and the block that was being built goes before it (R307 rule 3) -/
  finish : Bool := false
  /-- the next BSEQ expected, whether a replay is requested, and how often the same block has failed -/
  expect : Nat := 0
  wantRetry : Bool := false
  asked : Nat := 0
  /-- data units of the packet being received -/
  assembling : List DataUnit := []
  /-- credits for each VC, the shared pool last, as the sender keeps them, and the flits charged at the receiver; no credits are
  listed until the link has come UP -/
  credit : List Nat := []
  charged : List Nat := []
  /-- flits freed since the last control unit, in the same order -/
  freed : List Nat := []
  /-- the tick still to be sent (R306) -/
  tick : Option Tick := none
  /-- delay measured at training, in tenths of a nanosecond -/
  delay : Nat := 0
deriving DecidableEq, Repr

/-- A start in a stream engine's queue (R238, R242). -/
structure Start where
  core : CoreRef
  stream : Nat
  job : Nat
  desc : Nat
  d : Option StrDesc
deriving DecidableEq, Repr

/-- A transfer of a stream engine (R240, R242 to R244). -/
structure Xfer where
  id : Nat
  s : Start
  d : StrDesc
  /-- bytes whose reads have been issued, in the order of R240 -/
  pos : Nat := 0
  /-- reads and writes not yet answered -/
  fetches : Nat := 0
  writes : Nat := 0
  /-- pieces read and not yet written: destination, data with poison, and whether it is the last piece -/
  got : List (Nat × List (Byte × Bool) × Bool) := []
  /-- the version tag of the first response (R391) -/
  tag : Option Nat := none
  /-- the FLAG_ADD of an ADD transfer with NOTIFY has been sent; it has been answered -/
  flagSent : Bool := false
  told : Bool := false
  nacked : Bool := false
  stale : Bool := false
  /-- the slot has completed; the flag may still wait for its turn -/
  ended : Bool := false
deriving DecidableEq, Repr

/-- A stream engine beside its registers. -/
structure StrSt where
  queue : List Start := []
  xfers : List Xfer := []
  next : Nat := 0
  /-- version-tag records (R244) -/
  recs : List (Nat × Nat) := []
deriving DecidableEq, Repr

/-- The mesh, the fabric and the requests in flight. -/
structure NetSt where
  mesh : List MeshPkt := []
  /-- packets that have reached their target unit -/
  arrived : List Arrival := []
  /-- those of them that a memory holds, oldest first (R250) -/
  memHeld : List Arrival := []
  /-- injections held after a bank switch, in order (R283) -/
  hold : List MeshPkt := []
  resv : List Resv := []
  reqs : List Req := []
  nextTag : Nat := 0
  flows : List (Nat × FlowSt) := []
  binds : List FlowBind := []
  /-- routers retired, in package order (R285) -/
  retired : List Nat := []
  /-- injections are held since this mesh cycle of the Stitch (R283) -/
  holding : Option Nat := none
  /-- new routing tables stand in the inactive banks and wait for a change that switches to them (R258, R283) -/
  tablesWait : Bool := false
  groups : List GroupSt := []
  reds : List RedSt := []
  links : List (Nat × LinkSt) := []
  engines : List (Nat × StrSt) := []
deriving DecidableEq, Repr

/-- What the device gives to the outside (log entry 9). -/
inductive Out where
  /-- a completion to the host: the data it carries, or a status (1 Unsupported Request, 4 Completer Abort, 2 Request Retry
  Status) -/
  | hostCpl (data : List Byte) (status : Nat) (ep : Bool)
  /-- a memory write and a memory read that the device issues to the host -/
  | hostWrite (addr : Nat) (data : List Byte)
  | hostRead (tag addr len : Nat)
  /-- an MSI-X message of a function: its vector -/
  | msix (fn vec : Nat)
  /-- a link block sent -/
  | block (l : Nat) (b : Block)
  /-- a DOE response: its status and payload -/
  | doe (tag status : Nat) (data : List Byte)
  /-- an I3C response, a NACK on the bus, and an in-band interrupt -/
  | i3c (data : List Byte)
  | i3cNack
  /-- what ENTDAA shows of the target: its provisional ID, that its BCR declares IBIs with payload, and its DCR -/
  | i3cDaa (pid : Nat) (ibiPayload : Bool) (dcr : Nat)
  | ibi (data : List Byte)
  /-- an output pin: its number and level -/
  | pin (n : Nat) (level : Bool)
  /-- bits shifted out of the debug port -/
  | tdo (len val : Nat)
  /-- a seam arrival sent to the parent over its link -/
  | seam (ctx : Nat) (held : Bool)
  /-- a register read's value; a register access refused to its issuer with a fault code (R40) -/
  | regData (val : Nat)
  | regRefused (code : Nat)
deriving DecidableEq, Repr

end Sys2Proof.Machine
end

