-- ==== Sys2Proof/Machine/MgmtTypes.lean ====
section
/-! DEFINITION. What the shared blocks hold beside their registers. -/

namespace Sys2Proof.Machine

/-! ### TCK -/

/-- What a context entry brings about beside its shadow values, as it applies. -/
inductive After where
  | none
  /-- the context is bound (R258) -/
  | bind (ctx : Nat)
  /-- the context is unbound (R273) -/
  | unbind (ctx : Nat)
  /-- the job resumes after a restore (R407) -/
  | resume (ctx : Nat)
deriving DecidableEq, Repr

/-- An armed change or a context entry (R211, R216). A pair is a register's key and its value; for an armed change the key is
a BAR0 offset. -/
structure Armed where
  n : Nat
  org : Org
  ctx : Option Nat := none
  pairs : List (Nat × Nat) := []
  /-- the shadow values of a context entry: register key, the bits it covers, and their value -/
  shadow : List (Nat × Nat × Nat) := []
  /-- pairs that their blocks have acknowledged, and blocks reset since (R213, R214) -/
  acked : List Nat := []
  reset : List Nat := []
  after : After := .none
deriving DecidableEq, Repr

/-- A context at its seam barrier (R206 to R209). -/
structure SeamSt where
  /-- the Stitch of the device's own arrival -/
  own : Option Nat := none
  /-- the device holds its arrival (R268, R402) -/
  held : Bool := false
  /-- children that have arrived, by link, and whether their arrival is held -/
  kids : List (Nat × Bool) := []
  /-- the arrival has been sent to the parent -/
  sent : Bool := false
  /-- the Stitch at which the barrier completes, once announced -/
  due : Option Nat := none
  /-- the segment's start -/
  start : Nat := 0
deriving DecidableEq, Repr

/-- TCK beside its registers. -/
structure TckSt where
  building : List (Nat × Nat) := []
  armed : List (Nat × Armed) := []
  /-- context entries whose Stitch has passed with blocks still to bring level: the shadow values those lack, by entry (R216) -/
  late : List (Nat × Armed) := []
  /-- ticks or edges missing in a row, and good ones in a row -/
  missed : Nat := 0
  good : Nat := 0
  /-- a tick has come since the last Stitch -/
  ticked : Bool := false
  aligned : Bool := false
  holdover : Bool := false
  syncLost : Bool := false
  expired : Bool := false
  /-- a TICK_SYNC_IN edge has come since reset -/
  synced : Bool := false
  seams : List (Nat × SeamSt) := []
  /-- contexts that stop at the next Stitch, with the cause of their reset (R198, R270, R396) -/
  stops : List (Nat × Nat) := []
  /-- Stitch and entry of the last armed change that named TCK_LEN (R214) -/
  lenArm : Option (Nat × Nat) := none
deriving DecidableEq, Repr

/-! ### The Press -/

/-- A bucket-table entry (R355). -/
structure BktEnt where
  src : Nat
  out : Nat
  n : Nat
  size : Nat
  uses : Nat
  fillFlag : Nat
  fillCount : Nat
  freeFlag : Nat
  arrive1 : Nat
  arrive2 : Nat
  done : Nat
  ax1 : Nat
  en1 : Bool
  ax2 : Nat
  en2 : Bool
  group : Nat
  accOff : Nat
  /-- a reserved bit is set, or the entry could not be read -/
  bad : Bool
deriving DecidableEq, Repr

/-- A shard-table entry (R375). -/
structure ShdEnt where
  master : Nat
  mom : Nat
  var : Nat
  wc : Nat
  sstride : Nat
  wfmt : Nat
  recipe : Nat
  trk : Nat
  momEn : Bool
  varEn : Bool
  pbase : Nat
  bad : Bool
deriving DecidableEq, Repr

/-- A micro-operation of a recipe (R382). -/
structure MicroOp where
  op : Nat
  d : Nat
  a : Nat
  b : Nat
  c : Nat
  rnd : Nat
  bad : Bool
deriving DecidableEq, Repr

/-- An entry in service (R362): uses sent, whether contributions wait for acknowledgement, steps rounded as owner, whether the
stage-2 partials of the next have gone out, and whether the Press has stopped serving it (R371). -/
structure EntSt where
  uses : Nat := 0
  sending : Bool := false
  step : Nat := 0
  parted : Bool := false
  stopped : Bool := false
deriving DecidableEq, Repr

/-- The Presses' work for one context (R362 to R397). -/
structure PressSt where
  ents : List (BktEnt × ShdEnt) := []
  /-- the recipe table as latched: 4 recipes -/
  recipes : List (List MicroOp) := []
  st : List EntSt := []
  /-- steps that some owned bucket of this device made non-finite -/
  nonfin : List Nat := []
  /-- steps whose verdict bit has been contributed, and steps whose verdict the root has broadcast -/
  voted : Nat := 0
  told : Nat := 0
  /-- the verdict value of the newest broadcast at the root -/
  verdict : Nat := 0
  /-- the fence has fallen and every Press has finished its commit: the flip is due (R378) -/
  committed : Bool := false
  /-- the commit was a skip -/
  skipped : Bool := false
  /-- tracker slots recorded in the commit -/
  recorded : List Nat := []
  /-- digests of the step committed last -/
  digests : List (Nat × List Byte) := []
  /-- dies whose comparison of the last step is still to be made (R395) -/
  compare : List Nat := []
  /-- requests that wait until their entry's Press runs, oldest first: entry, kind, flow, request (R400) -/
  queue : List (Nat × PressOp × Option Nat × Packet) := []
deriving DecidableEq, Repr

/-! ### The Baste -/

/-- A source of a restore (R409, R410): its device, whether it still serves, its shard table's address and the entries read so far. -/
structure SrcSt where
  dev : Nat
  alive : Bool := true
  table : List (Nat × List Byte) := []
  ready : Bool := false
deriving DecidableEq, Repr

/-- A restore in progress (R407): its step and source, the sources, the source that each part comes from (2: the relay), the next
place the record is asked for, and a relayed part still to come. -/
structure RestoreSt where
  step : Nat
  source : Nat
  srcs : List SrcSt := []
  parts : List Nat := []
  recFrom : Nat := 0
  relayed : Bool := false
  hostLeft : Bool := false
  /-- the record's header has been found right, so that the slot regions may come; a piece of the record has been refused -/
  recOk : Bool := false
  recBad : Bool := false
deriving DecidableEq, Repr

/-- A parity generation (R413): its step, buffer, members gathered, and whether it makes a chunk for a failed member (R414). -/
structure GenSt where
  step : Nat
  buf : Nat
  asked : List Nat := []
  lost : Option Nat := none
deriving DecidableEq, Repr

/-- A relay in progress (R410): the target, the bytes of part 3 asked for and its end, the half in hand and the half's start. -/
structure RelaySt where
  target : Nat
  pos : Nat
  lo : Nat
  hi : Nat
  putting : Bool := false
deriving DecidableEq, Repr

/-- The Bastes' work for one context. -/
structure SnapSt where
  /-- the step of the last record, and of a record whose seam has not completed -/
  recorded : Option Nat := none
  pend : Option Nat := none
  /-- a capture's arrival is held until the mirrors are acknowledged; one of them was refused -/
  capturing : Bool := false
  mirrorLost : Bool := false
  restore : Option RestoreSt := none
  restored : Bool := false
  snap : Option Nat := none
  snapSent : Bool := false
  gen : Option GenSt := none
  /-- the steps whose copies the two generation buffers hold, and the generation whose parity a rebuild has consumed -/
  buf0 : Option Nat := none
  buf1 : Option Nat := none
  consumed : Option Nat := none
  relay : Option RelaySt := none
  /-- what the safe state keeps from going out (R422): requests, and write-only bits of SNP_CTL to be acted on -/
  held : List (BasteOp × Nat × Option Nat × Packet) := []
  acts : Nat := 0
deriving DecidableEq, Repr

/-! ### The Marker -/

/-- Where a buffer lies (R262): its number, its space (0 near store, 1 far memory), offset and size. -/
structure BufPlace where
  n : Nat
  space : Nat
  off : Nat
  size : Nat
deriving DecidableEq, Repr

/-- The scheduled load of a job (R259 to R261): an element, the Stitch mask with its period, first slot, slots and bytes per slot.
An element is a mesh hop `4 * position + output` or, from 1000 on, a link. -/
structure Load where
  elem : Nat
  period : Nat
  mask : Nat
  first : Nat
  count : Nat
  bytes : Nat
deriving DecidableEq, Repr

/-- A job of a context (R253 to R258). -/
structure JobSt where
  ctx : Nat
  pat : Pattern
  /-- 0 the switch is armed, 1 bound, 2 stopped, 3 unbound after a failed refit, 4 the unbinding switch is armed -/
  phase : Nat := 0
  /-- logical core (`256 type + n`) and the core's key -/
  cores : List (Nat × Nat) := []
  /-- logical cluster and physical cluster -/
  clus : List (Nat × Nat) := []
  flows : List (Nat × Nat) := []
  /-- flow contexts reserved for the migration slots -/
  migFlows : List Nat := []
  bufs : List BufPlace := []
  loads : List Load := []
  /-- persistent local-memory ranges: core key, start, length -/
  persist : List (Nat × Nat × Nat) := []
  /-- seam completions since binding -/
  seams : Nat := 0
  /-- triggers pending, by the bits of MRK_REFIT -/
  trig : Nat := 0
  /-- the refit is due: the device's arrival is withheld, or the context reset has ended -/
  due : Bool := false
  /-- UNBIND at the next seam -/
  unbind : Bool := false
  /-- the fitting is that of a fitting epoch: pending bins take effect with it (R17, R255) -/
  epoch : Bool := false
deriving DecidableEq, Repr

/-! ### Resets and start (R423 to R446) -/

/-- A reset in progress (R433): its domain, the units that reset with it, its record (block of the RST and entry), whether it
has been performed, and whether it still drains. -/
structure ResetRun where
  dom : Dom
  doms : List Dom
  rst : Blk
  entry : Nat
  done : Bool := false
deriving DecidableEq, Repr

/-- A record of the repair and map-out region (R432). -/
structure RepRec where
  kind : Nat
  block : Nat
  index : Nat
  data : Nat := 0
  ok : Bool := true
  /-- array lines chosen together bear one number (R101, log entry 94) -/
  table : Nat := 0
deriving DecidableEq, Repr

/-- A record of the ageing region (R466). -/
structure AgeRec where
  kind : Nat
  unit : Nat
  value : Nat
  num : Nat
  data : List Nat := []
deriving DecidableEq, Repr

/-- A seal record of the tail region (R493). -/
structure SealRec where
  slot : Nat
  chain : Nat
  first : Nat
  reason : Nat
  stitch : Nat
  h : List Byte
  entries : List (List Byte)
  r : List Byte
  sig : List Byte
  done : Bool := false
deriving DecidableEq, Repr

/-- The module's supply, pins and start (R424, R449, R509 to R511). -/
structure ModSt where
  /-- the rails are in regulation, and PGOOD is high -/
  rails : Bool := true
  /-- off until PWR_EN is cycled (R449, R459) -/
  tripped : Bool := false
  /-- the chip is held by TRAY_RST_n or by the supply -/
  trayHeld : Bool := false
  supplyHeld : Bool := false
  /-- the start still to run: 1 cold start, 2 the chip reset sequence (R426) -/
  start : Nat := 1
  /-- resets that a chip reset has cut off, for its record (R27) -/
  cut : Nat := 0
  /-- filtered levels of the pins, by pin code (R517) -/
  pins : Nat := 0x77
  /-- pulses rejected since the last Stitch, by pin -/
  glitches : List (Nat × Nat) := []
  /-- REFCLK is lost -/
  refLost : Bool := false
  /-- the current instruction of the TAP -/
  tap : Nat := 1
  /-- ALERT_n as driven last, and the GLB_EVENT bits already signalled -/
  alert : Bool := false
  signalled : Nat := 0
deriving DecidableEq, Repr

/-- A posted write of a memory window: its function, the key of its place, its data, and whether it came poisoned (R156, R234). -/
structure PostedWrite where
  fn : Nat
  key : Nat
  data : List Byte
  ep : Bool
deriving DecidableEq, Repr

/-- The host port beside its registers (R502, R505, R507, R517): dwords written to configuration space by `4096 fn + offset`, the AER
status of the functions (uncorrectable errors in bits 31:0, correctable in 63:32) and their logged headers, and the next places of the
error log and of the pin-event ring, and the size of PF BAR4 as a power of two (R503). -/
structure HostSt where
  cfg : List (Nat × Nat) := []
  aer : List (Nat × Nat) := []
  headers : List (Nat × List Nat) := []
  errNext : Nat := 0
  pinNext : Nat := 0
  bar4 : Nat := 41
  /-- posted writes of the memory windows that wait, oldest first (R156) -/
  posted : List PostedWrite := []
deriving DecidableEq, Repr

/-! ### The Tape and AGE (R452 to R464) -/

/-- The Tape beside its registers: conditions in force, freeze cycles of each cluster since the Stitch, and the energy of the
bucket in microjoules (DESIGN CHOICE, log entry 10). -/
structure TapeSt where
  throttle : Bool := false
  hot : Bool := false
  sag : Bool := false
  warned : Bool := false
  /-- a floor has been in force since the last Stitch (R204) -/
  floored : Bool := false
  frz : List (Nat × Nat) := []
  bucket : Nat := 6000000
  /-- energy not yet a whole millijoule, in microjoules -/
  uj : Nat := 0
  /-- throttle cycles of each cluster exceed L_T in this Stitch already -/
  short : Bool := false
  /-- the need of the bound contexts exceeds the cap -/
  needy : Bool := false
  /-- the cap as a lower bin cap became pending (R458) -/
  lowCap : Nat := 0
  /-- the input's voltage and power in the last period -/
  cv : Nat := 0
  watts : Nat := 0
deriving DecidableEq, Repr

/-- AGE beside its registers: links with a low eye, by number (R464). -/
structure AgeSt where
  lowEyes : List Nat := []
  /-- clusters that have stretched since the last fitting epoch -/
  stretched : List Nat := []
  /-- latest readings: kind and unit as `128 kind + unit`, the worst path readings, SRAM margin or margin -/
  last : List (Nat × List Nat × Nat) := []
deriving DecidableEq, Repr

/-! ### The Selvedge (R470 to R483) -/

/-- A public key of the vendor list: its bytes and usage mask. -/
structure VKey where
  key : List Byte
  usage : Nat
deriving DecidableEq, Repr

structure SelSt where
  /-- the vendor key list of the booted image -/
  vkeys : List VKey := []
  /-- the current owner key hash -/
  owner : Option (List Byte) := none
  userKeys : List (Option (List Byte)) := [none, none, none, none]
  challenge : Option (List Byte) := none
  co : Bool := false
  user : Bool := false
  fails : Nat := 0
  lockout : Bool := false
  error : Bool := false
  tested : Bool := false
  zeroised : Bool := false
  debug : Bool := false
  debugNext : Option Bool := none
  /-- counter 0 has been advanced since the start (R479) -/
  advanced : Bool := false
  /-- the identity key, where it could be derived -/
  idKey : Option (List Byte) := none
  drbg : Nat := 0
  /-- DIGEST and version of the booted management image, and IMAGE digests of the core firmware -/
  mgmt : List Byte := []
  mgmtVer : Nat := 0
  core : List (List Byte) := [[], [], []]
  /-- SHAKE256 over the configuration as locked (R480) -/
  config : List Byte := []
deriving DecidableEq, Repr

/-- The fuses (R34, R476, R479). -/
structure FuseSt where
  grade : Nat := 0
  serial : Nat := 0
  /-- vendor root key hashes and their revocation bits -/
  roots : List (List Byte × Bool) := []
  owners : List (List Byte) := []
  counters : List Nat := List.replicate 64 0
  secret : List Byte := List.replicate 57 0
  /-- each cluster's spare slot, and on the QV9-S the two slots cut off, each as a place among the cluster's slots still left (R3, R9,
  log entry 4) -/
  spares : List Nat := List.replicate 32 8
  fused : List (Nat × Nat) := []
  certs : List Byte := []
deriving DecidableEq, Repr

end Sys2Proof.Machine
end

