-- ==== Sys2Proof/Machine/Blocks.lean ====
section
/-! DEFINITION. Where the register blocks lie: the BAR0 map (R60 to R63), block types (R66) and the ID register (R42). -/

namespace Sys2Proof.Machine

/-- Cores by type: slots 0 to 8 matrix, 9 and 10 vector, 11 scalar (R42). -/
def isMatrix (c : CoreRef) : Bool := decide (c.slot ≤ 8)
def isVector (c : CoreRef) : Bool := c.slot == 9 || c.slot == 10
def isScalar (c : CoreRef) : Bool := c.slot == 11

/-- One number per core of the package. -/
def coreKey (c : CoreRef) : Nat := (c.die * 8 + c.cl) * 16 + c.slot

def coreOfKey (k : Nat) : CoreRef := ⟨k / 128, k / 16 % 8, k % 16⟩

/-- The base of a die's range (R62). -/
def dieBase (d : Nat) : Nat := 0x02000000 * (d + 1)

/-- The base of a cluster's window (R62). -/
def cluBase (d c : Nat) : Nat := dieBase d + 0x200000 * (c + 1)

/-- The base of a core window (R63). -/
def coreBase (c : CoreRef) : Nat :=
  cluBase c.die c.cl + 0x20000 * (if c.slot ≤ 8 then c.slot else c.slot + 1)

/-- The BAR0 offset of a block's window (R61 to R63). -/
def blkBase : Blk → Nat
  | .glb => 0x0 | .mgc => 0x4000 | .sel => 0x8000 | .clk => 0xC000 | .pwr => 0x10000 | .age => 0x14000
  | .tck => 0x18000 | .log => 0x1C000 | .pci => 0x20000 | .mrk => 0x24000 | .fab => 0x28000 | .rst => 0x2C000
  | .dbg => 0x30000
  | .die d => dieBase d | .prs d => dieBase d + 0x4000 | .snp d => dieBase d + 0x8000 | .rstd d => dieBase d + 0xC000
  | .nsc d i => dieBase d + 0x10000 + 0x4000 * i
  | .fmc d i => dieBase d + 0x20000 + 0x4000 * i
  | .lnk d i => dieBase d + 0x40000 + 0x4000 * i
  | .msh d r => dieBase d + 0x80000 + 0x4000 * r
  | .clu d c => cluBase d c + 0x1C0000
  | .str d c i => cluBase d c + 0x1A0000 + 0x4000 * i
  | .cor c => coreBase c
  | .seq c => coreBase c + 0x4000
  | .arr c => coreBase c + 0x8000
  | .fed c => coreBase c + 0xC000
  | .vec c => coreBase c + 0x10000
  | .txb c => coreBase c + 0x14000
  | .sct c => coreBase c + 0x18000
  | .lmm c => coreBase c + (if isMatrix c then 0x1C000 else 0x8000)

/-- The block type code (R66). -/
def blkType : Blk → Nat
  | .glb => 1 | .mgc => 2 | .sel => 3 | .clk => 4 | .pwr => 5 | .age => 6 | .tck => 7 | .log => 8 | .pci => 9
  | .mrk => 0xA | .fab => 0xB | .rst => 0xC | .rstd _ => 0xC | .dbg => 0xD
  | .die _ => 0x10 | .prs _ => 0x11 | .snp _ => 0x12 | .nsc _ _ => 0x13 | .fmc _ _ => 0x14 | .lnk _ _ => 0x15
  | .msh _ _ => 0x16 | .clu _ _ => 0x20 | .str _ _ _ => 0x21 | .cor _ => 0x22
  | .seq c => if isMatrix c then 0x23 else if isScalar c then 0x2B else 0x2A
  | .arr _ => 0x24 | .fed _ => 0x25 | .vec _ => 0x26 | .txb _ => 0x27 | .sct _ => 0x28 | .lmm _ => 0x29

/-- A block that sums up its children's events (R49, R50). -/
def isSummary : Blk → Bool
  | .glb | .die _ | .clu _ _ | .cor _ => true
  | _ => false

/-- The instance fields of ID: die, cluster, slot and index (R42). Chip-level blocks have instance 0xFFFF. -/
def blkInstance : Blk → Nat
  | .die d | .prs d | .snp d | .rstd d => d * 16384 + 15 * 1024 + 15 * 64
  | .nsc d i | .fmc d i | .lnk d i | .msh d i => d * 16384 + 15 * 1024 + 15 * 64 + i
  | .clu d c => d * 16384 + c * 1024 + 15 * 64
  | .str d c i => d * 16384 + c * 1024 + 12 * 64 + i
  | .cor c | .seq c | .arr c | .fed c | .vec c | .txb c | .sct c | .lmm c =>
    c.die * 16384 + c.cl * 1024 + c.slot * 64
  | _ => 0xFFFF

/-- The value of the ID register (R42). -/
def blkId (b : Blk) : Nat := blkType b * 65536 + blkInstance b

/-- The core a block belongs to. -/
def blkCore : Blk → Option CoreRef
  | .cor c | .seq c | .arr c | .fed c | .vec c | .txb c | .sct c | .lmm c => some c
  | _ => none

/-- The cluster a block belongs to. -/
def blkCluster : Blk → Option (Nat × Nat)
  | .clu d c | .str d c _ => some (d, c)
  | b => (blkCore b).map fun c => (c.die, c.cl)

/-- The die a block belongs to; chip-level blocks belong to none. -/
def blkDie : Blk → Option Nat
  | .die d | .prs d | .snp d | .rstd d | .nsc d _ | .fmc d _ | .lnk d _ | .msh d _ => some d
  | b => (blkCluster b).map (·.1)

/-- The indices of a block's name lie within the device. -/
def coreOk (c : CoreRef) : Bool := decide (c.die < 4) && decide (c.cl < 8) && decide (c.slot < 12)

def blkOk : Blk → Bool
  | .die d | .prs d | .snp d | .rstd d => decide (d < 4)
  | .nsc d i => decide (d < 4) && decide (i < 4)
  | .fmc d i => decide (d < 4) && decide (i < 6)
  | .lnk d i => decide (d < 4) && decide (i < 8)
  | .msh d r => decide (d < 4) && decide (r < 48)
  | .clu d c => decide (d < 4) && decide (c < 8)
  | .str d c i => decide (d < 4) && decide (c < 8) && decide (i < 2)
  | .cor c | .seq c | .lmm c => coreOk c
  | .arr c | .fed c | .vec c | .txb c | .sct c => coreOk c && isMatrix c
  | _ => true

/-- The chip-level block of window `w` (R61). -/
def chipBlk : Nat → Option Blk
  | 0 => some .glb | 1 => some .mgc | 2 => some .sel | 3 => some .clk | 4 => some .pwr | 5 => some .age
  | 6 => some .tck | 7 => some .log | 8 => some .pci | 9 => some .mrk | 10 => some .fab | 11 => some .rst
  | 12 => some .dbg
  | _ => none

/-- The block of window `w` of a die's own range (R62). -/
def dieBlk (d w : Nat) : Option Blk :=
  if w = 0 then some (.die d) else if w = 1 then some (.prs d) else if w = 2 then some (.snp d)
  else if w = 3 then some (.rstd d)
  else if w < 8 then some (.nsc d (w - 4))
  else if w < 14 then some (.fmc d (w - 8))
  else if w < 16 then none
  else if w < 24 then some (.lnk d (w - 16))
  else if w < 32 then none
  else if w < 80 then some (.msh d (w - 32))
  else none

/-- The block of window `w` of a core window (R63). -/
def coreBlk (c : CoreRef) (w : Nat) : Option Blk :=
  if isMatrix c then
    match w with
    | 0 => some (.cor c) | 1 => some (.seq c) | 2 => some (.arr c) | 3 => some (.fed c) | 4 => some (.vec c)
    | 5 => some (.txb c) | 6 => some (.sct c) | 7 => some (.lmm c)
    | _ => none
  else
    match w with
    | 0 => some (.cor c) | 1 => some (.seq c) | 2 => some (.lmm c)
    | _ => none

/-- The block at offset `q` of a cluster window (R63). -/
def cluBlk (d c q : Nat) : Option Blk :=
  if q < 0x1A0000 then
    let s := q / 0x20000
    if s = 9 then none
    else coreBlk ⟨d, c, if s ≤ 8 then s else s - 1⟩ (q % 0x20000 / 0x4000)
  else if q < 0x1A4000 then some (.str d c 0)
  else if q < 0x1A8000 then some (.str d c 1)
  else if q < 0x1C0000 then none
  else if q < 0x1C4000 then some (.clu d c)
  else none

/-- The block whose window holds a BAR0 offset of the physical pages (R60). -/
def blkAt (a : Nat) : Option Blk :=
  if a < 0x02000000 then chipBlk (a / 0x4000)
  else if a < 0x0A000000 then
    let d := a / 0x02000000 - 1
    let r := a % 0x02000000
    if r < 0x200000 then dieBlk d (r / 0x4000)
    else if r < 0x1200000 then cluBlk d (r / 0x200000 - 1) (r % 0x200000)
    else none
  else none

/-- The view that an offset names (R36): 0 normal, 1 SET, 2 CLR, 3 TGL. -/
def viewOf (a : Nat) : Nat := bits a 12 2

/-- The offset within the view. -/
def regOff (a : Nat) : Nat := bits a 0 12

/-- The router of coordinates (x, y) (R12, R62): its die and its number there. -/
def routerAt (x y : Nat) : Nat × Nat := (x / 8 + 2 * (y / 6), x % 8 + 8 * (y % 6))

/-- The coordinates of router `r` of die `d` (R62). -/
def routerPos (d r : Nat) : Nat × Nat := (8 * (d % 2) + r % 8, 6 * (d / 2) + r / 8)

/-- The cores of a cluster. -/
def cluCores (d c : Nat) : List CoreRef := (List.range 12).map fun s => ⟨d, c, s⟩

/-- The clusters of the package. -/
def allClusters : List (Nat × Nat) := (List.range 32).map fun k => (k / 8, k % 8)

/-- The cores of the package. -/
def allCores : List CoreRef := allClusters.flatMap fun p => cluCores p.1 p.2

/-- The blocks of a core (R63). -/
def coreBlks (c : CoreRef) : List Blk :=
  if isMatrix c then [.cor c, .seq c, .arr c, .fed c, .vec c, .txb c, .sct c, .lmm c]
  else [.cor c, .seq c, .lmm c]

/-- The blocks of a cluster. -/
def cluBlks (d c : Nat) : List Blk :=
  (cluCores d c).flatMap coreBlks ++ [.str d c 0, .str d c 1, .clu d c]

/-- The blocks of a die that are not in its clusters. -/
def dieOwnBlks (d : Nat) : List Blk :=
  [.die d, .prs d, .snp d, .rstd d] ++ (List.range 4).map (.nsc d) ++ (List.range 6).map (.fmc d)
    ++ (List.range 8).map (.lnk d) ++ (List.range 48).map (.msh d)

/-- All blocks of a die. -/
def dieBlks (d : Nat) : List Blk := dieOwnBlks d ++ (List.range 8).flatMap (cluBlks d)

/-- The chip-level blocks. -/
def chipBlks : List Blk := [.glb, .mgc, .sel, .clk, .pwr, .age, .tck, .log, .pci, .mrk, .fab, .rst, .dbg]

/-- All blocks that BAR0 can reach (R66). -/
def allBlks : List Blk := chipBlks ++ (List.range 4).flatMap dieBlks

end Sys2Proof.Machine
end

