-- ==== Sys2Proof/Machine/RegMap.lean ====
section
/-! DEFINITION. The registers of every block type: offset, field types and reset value, from the register tables of the
chapters. A name is the spec's own; an entry gives the masks of the RW, RWL, W1C and WO bits (R7); every other listed bit
is maintained by the hardware. -/

namespace Sys2Proof.Machine

/-- One register: its offset in the normal view, the masks of its writable fields by type (R7), and its reset value. -/
structure RegSpec where
  off : Nat
  rw : Nat
  rwl : Nat
  w1c : Nat
  wo : Nat
  reset : Nat
deriving DecidableEq, Repr

/-- A register whose fields the hardware maintains. -/
def ro (off : Nat) : RegSpec := ⟨off, 0, 0, 0, 0, 0⟩
def roAt (off reset : Nat) : RegSpec := ⟨off, 0, 0, 0, 0, reset⟩

/-- A register whose listed fields are RW. -/
def rw (off mask : Nat) : RegSpec := ⟨off, mask, 0, 0, 0, 0⟩
def rwAt (off mask reset : Nat) : RegSpec := ⟨off, mask, 0, 0, 0, reset⟩

/-! ### The common header (R41 to R48, R56) -/

def R_ID : Nat := 0x000
def R_VERSION : Nat := 0x004
def R_CAPS0 : Nat := 0x008
def R_CAPS1 : Nat := 0x00C
def R_STATUS : Nat := 0x010
def R_EVENT : Nat := 0x014
def R_EVENT_EN : Nat := 0x018
def R_FAULT : Nat := 0x01C
def R_CTRL : Nat := 0x020
def R_PARITY : Nat := 0x024
def R_WPERM : Nat := 0xFFC

def GLB_DEVNUM : Nat := 0x040
def GLB_TORUS : Nat := 0x044
def GLB_GRADE : Nat := 0x048
def GLB_CLK_COMMIT : Nat := 0x04C
/-- Registers of GLB. -/
def tabGlb : List RegSpec :=
  [⟨GLB_DEVNUM, 0, 0x80007FFF, 0, 0, 0⟩, ⟨GLB_TORUS, 0, 0x3FF, 0, 0, 0⟩, ro GLB_GRADE, roAt GLB_CLK_COMMIT 0x76C]

def DIE_UNIT_EV : Nat := 0x040
def DIE_MSH_EV_LO : Nat := 0x044
def DIE_MSH_EV_HI : Nat := 0x048
/-- Registers of DIE. -/
def tabDie : List RegSpec :=
  [ro DIE_UNIT_EV, ro DIE_MSH_EV_LO, ro DIE_MSH_EV_HI]

def CLU_SLOT : Nat := 0x040
/-- Registers of CLU. -/
def tabClu : List RegSpec :=
  [ro CLU_SLOT]

def ARR_CFG : Nat := 0x040
def ARR_MODE : Nat := 0x044
def ARR_REPAIR_ROW0 : Nat := 0x048
def ARR_REPAIR_ROW1 : Nat := 0x04C
def ARR_REPAIR_ROW2 : Nat := 0x050
def ARR_REPAIR_ROW3 : Nat := 0x054
def ARR_REPAIR_COL0 : Nat := 0x058
def ARR_REPAIR_COL1 : Nat := 0x05C
def ARR_REPAIR_COL2 : Nat := 0x060
def ARR_REPAIR_COL3 : Nat := 0x064
def ARR_REPAIR_STAT : Nat := 0x068
def ARR_RES_LOC : Nat := 0x070
def ARR_QUAR : Nat := 0x074
def ARR_QDUMP_LO : Nat := 0x078
def ARR_QDUMP_HI : Nat := 0x07C
def ARR_SLICES_LO : Nat := 0x080
def ARR_SLICES_HI : Nat := 0x084
def ARR_SPARSE_LO : Nat := 0x088
def ARR_SPARSE_HI : Nat := 0x08C
/-- Registers of ARR. -/
def tabArr : List RegSpec :=
  [rwAt ARR_CFG 0xF 4, ro ARR_MODE, rw ARR_REPAIR_ROW0 0x80FF, rw ARR_REPAIR_ROW1 0x80FF, rw ARR_REPAIR_ROW2 0x80FF,
   rw ARR_REPAIR_ROW3 0x80FF, rw ARR_REPAIR_COL0 0x80FF, rw ARR_REPAIR_COL1 0x80FF, rw ARR_REPAIR_COL2 0x80FF,
   rw ARR_REPAIR_COL3 0x80FF, ro ARR_REPAIR_STAT, ro ARR_RES_LOC, ⟨ARR_QUAR, 0, 0, 0, 0xF00, 0⟩,
   rw ARR_QDUMP_LO 0xFFFFFFFF, rw ARR_QDUMP_HI 0xFFFFFFFF, ro ARR_SLICES_LO] ++
  [ro ARR_SLICES_HI, ro ARR_SPARSE_LO, ro ARR_SPARSE_HI]

def FED_MAP_BASE : Nat := 0x040
def FED_MAP_PITCH : Nat := 0x044
def FED_BUF : Nat := 0x048
def FED_FRZ_SAFE : Nat := 0x050
def FED_FRZ_QUAR : Nat := 0x054
def FED_FRZ_THROTTLE : Nat := 0x058
def FED_FRZ_DRAIN : Nat := 0x05C
def FED_FRZ_FEED_A : Nat := 0x060
def FED_FRZ_FEED_B : Nat := 0x064
def FED_FRZ_TOTAL_LO : Nat := 0x070
def FED_FRZ_TOTAL_HI : Nat := 0x074
def FED_SKIP_LO : Nat := 0x078
def FED_SKIP_HI : Nat := 0x07C
/-- Registers of FED. -/
def tabFed : List RegSpec :=
  [rw FED_MAP_BASE 0x7FFFFF, rw FED_MAP_PITCH 0xFFFF, ro FED_BUF, ro FED_FRZ_SAFE, ro FED_FRZ_QUAR,
   ro FED_FRZ_THROTTLE, ro FED_FRZ_DRAIN, ro FED_FRZ_FEED_A, ro FED_FRZ_FEED_B, ro FED_FRZ_TOTAL_LO,
   ro FED_FRZ_TOTAL_HI, ro FED_SKIP_LO, ro FED_SKIP_HI]

def TXB_TILES0 : Nat := 0x040
def TXB_TILES1 : Nat := 0x044
/-- Registers of TXB. -/
def tabTxb : List RegSpec :=
  [ro TXB_TILES0, ro TXB_TILES1]

def SCT_SEL : Nat := 0x040
def SCT_CFG : Nat := 0x044
def SCT_CUR : Nat := 0x048
def SCT_HIST : Nat := 0x04C
def SCT_ADVANCE : Nat := 0x050
/-- Registers of SCT. -/
def tabSct : List RegSpec :=
  [rw SCT_SEL 0xF3F, rw SCT_CFG 0x1FFFF3, rw SCT_CUR 0xFFFFFFFF, rw SCT_HIST 0xFFFFFFFF,
   ⟨SCT_ADVANCE, 0, 0, 0, 0x8000003F, 0⟩]

def LMM_ARB : Nat := 0x040
def LMM_CONF_LO : Nat := 0x048
def LMM_CONF_HI : Nat := 0x04C
/-- Registers of LMM. -/
def tabLmm : List RegSpec :=
  [rwAt LMM_ARB 0x3F 0x10, ro LMM_CONF_LO, ro LMM_CONF_HI]

def VEC_RNG_CTL : Nat := 0x040
def VEC_RNG_SEED_LO : Nat := 0x044
def VEC_RNG_SEED_HI : Nat := 0x048
def VEC_RNG_SEL : Nat := 0x04C
def VEC_RNG_CTR_LO : Nat := 0x050
def VEC_RNG_CTR_HI : Nat := 0x054
def VEC_DRAWS_LO : Nat := 0x058
def VEC_DRAWS_HI : Nat := 0x05C
/-- Registers of VEC. -/
def tabVec : List RegSpec :=
  [rw VEC_RNG_CTL 1, rw VEC_RNG_SEED_LO 0xFFFFFFFF, rw VEC_RNG_SEED_HI 0xFFFFFFFF, rw VEC_RNG_SEL 0xFF,
   rw VEC_RNG_CTR_LO 0xFFFFFFFF, rw VEC_RNG_CTR_HI 0xFFFFFFFF, ro VEC_DRAWS_LO, ro VEC_DRAWS_HI]

def VCR_RNG_CTL : Nat := 0x400
def VCR_RNG_SEED_LO : Nat := 0x404
def VCR_RNG_SEED_HI : Nat := 0x408
def VCR_RNG_SEL : Nat := 0x40C
def VCR_RNG_CTR_LO : Nat := 0x410
def VCR_RNG_CTR_HI : Nat := 0x414
def VCR_DRAWS_LO : Nat := 0x418
def VCR_DRAWS_HI : Nat := 0x41C
def VCR_CFG : Nat := 0x420
/-- Registers of VCR. -/
def tabVcr : List RegSpec :=
  [rw VCR_RNG_CTL 1, rw VCR_RNG_SEED_LO 0xFFFFFFFF, rw VCR_RNG_SEED_HI 0xFFFFFFFF, rw VCR_RNG_SEL 0x3FF,
   rw VCR_RNG_CTR_LO 0xFFFFFFFF, rw VCR_RNG_CTR_HI 0xFFFFFFFF, ro VCR_DRAWS_LO, ro VCR_DRAWS_HI, rwAt VCR_CFG 0xC 4]

def SEQ_CTX : Nat := 0x040
def SEQ_SB_CFG : Nat := 0x044
def SEQ_SB_STAT : Nat := 0x048
def SEQ_ILL : Nat := 0x04C
def SEQ_TMO : Nat := 0x050
def SEQ_TMO_TGT_LO : Nat := 0x054
def SEQ_TMO_TGT_HI : Nat := 0x058
def SEQ_TMO_VAL_LO : Nat := 0x05C
def SEQ_TMO_VAL_HI : Nat := 0x060
def SEQ_ABS : Nat := 0x064
def SEQ_ABS_ADDR_LO : Nat := 0x068
def SEQ_ABS_ADDR_HI : Nat := 0x06C
def SEQ_BRK_STAT : Nat := 0x070
/-- Registers of SEQ. -/
def tabSeq : List RegSpec :=
  [ro SEQ_CTX, rwAt SEQ_SB_CFG 0xFFFF 0x2000, ro SEQ_SB_STAT, ro SEQ_ILL, ro SEQ_TMO, ro SEQ_TMO_TGT_LO,
   ro SEQ_TMO_TGT_HI, ro SEQ_TMO_VAL_LO, ro SEQ_TMO_VAL_HI, ro SEQ_ABS, ro SEQ_ABS_ADDR_LO, ro SEQ_ABS_ADDR_HI,
   ro SEQ_BRK_STAT]

def TCK_CFG : Nat := 0x040
def TCK_ROOT : Nat := 0x044
def TCK_LEN : Nat := 0x048
def TCK_GUARD : Nat := 0x04C
def TCK_CYCLES : Nat := 0x050
def TCK_BUDGET : Nat := 0x054
def TCK_NUM_LO : Nat := 0x058
def TCK_NUM_HI : Nat := 0x05C
def TCK_PARENT : Nat := 0x060
def TCK_OFFSET : Nat := 0x064
def TCK_HOLD : Nat := 0x068
def TCK_SEAM : Nat := 0x06C
def TCK_FRAME_EN_LO : Nat := 0x070
def TCK_FRAME_EN_HI : Nat := 0x074
def TCK_CTX_SEL : Nat := 0x078
def TCK_SEG : Nat := 0x07C
def TCK_OVF_CNT : Nat := 0x080
def TCK_OVR_CNT : Nat := 0x084
def TCK_OVR : Nat := 0x088
def TCK_OVR_NUM_LO : Nat := 0x08C
def TCK_OVR_NUM_HI : Nat := 0x090
def TCK_ARM_NUM_LO : Nat := 0x0A0
def TCK_ARM_NUM_HI : Nat := 0x0A4
def TCK_ARM_ADDR : Nat := 0x0A8
def TCK_ARM_DATA : Nat := 0x0AC
def TCK_ARM_CTL : Nat := 0x0B0
def TCK_ARM_STAT : Nat := 0x0B4
def TCK_MISS_SEL : Nat := 0x0C0
def TCK_MISS : Nat := 0x0C4
def TCK_MISS_INFO : Nat := 0x0C8
def TCK_MISS_CNT : Nat := 0x0CC
/-- Registers of TCK. FRAME_EN and SEG are fields the Marker maintains, which no BAR0 write changes (R216). -/
def tabTck : List RegSpec :=
  [⟨TCK_CFG, 0, 3, 0, 0, 0⟩, ⟨TCK_ROOT, 0, 0x7FFF, 0, 0, 0⟩, rwAt TCK_LEN 0x7FFF 0x640, rwAt TCK_GUARD 0x7F 0x1E,
   roAt TCK_CYCLES 0x76C0, roAt TCK_BUDGET 0x7330, rw TCK_NUM_LO 0xFFFFFFFF, rw TCK_NUM_HI 0xFFFFFFFF,
   rwAt TCK_PARENT 0x11F 0x100, ro TCK_OFFSET, rwAt TCK_HOLD 0x3FFF0000 0x27100000, rwAt TCK_SEAM 0xFF0F 0x4002,
   ro TCK_FRAME_EN_LO, ro TCK_FRAME_EN_HI, rw TCK_CTX_SEL 0x3F, ro TCK_SEG] ++
  [ro TCK_OVF_CNT, ro TCK_OVR_CNT, ⟨TCK_OVR, 0, 0, 0x80000000, 0, 0⟩, ro TCK_OVR_NUM_LO, ro TCK_OVR_NUM_HI,
   rw TCK_ARM_NUM_LO 0xFFFFFFFF, rw TCK_ARM_NUM_HI 0xFFFFFFFF, rw TCK_ARM_ADDR 0xFFFFFFF,
   ⟨TCK_ARM_DATA, 0, 0, 0, 0xFFFFFFFF, 0⟩, ⟨TCK_ARM_CTL, 0xF00, 0, 0, 7, 0⟩, roAt TCK_ARM_STAT 0x10,
   rw TCK_MISS_SEL 0x1F, ro TCK_MISS, ⟨TCK_MISS_INFO, 0, 0, 0, 0x200, 0⟩, ro TCK_MISS_CNT]

def ECC_CFG : Nat := 0x080
def ECC_SCRUB : Nat := 0x084
def ECC_CE_LO : Nat := 0x088
def ECC_CE_HI : Nat := 0x08C
def ECC_UE : Nat := 0x090
def ECC_WIN : Nat := 0x094
def ECC_ADDR_LO : Nat := 0x098
def ECC_ADDR_HI : Nat := 0x09C
def ECC_CADDR_LO : Nat := 0x0A0
def ECC_CADDR_HI : Nat := 0x0A4
def ECC_SYND : Nat := 0x0A8
def ECC_INJ : Nat := 0x0AC
/-- Registers of ECC. -/
def tabEcc : List RegSpec :=
  [rwAt ECC_CFG 0xFFFFFFFF 0x3E80040, rwAt ECC_SCRUB 0xFFFF0001 0x3C0001, ro ECC_CE_LO, ro ECC_CE_HI, ro ECC_UE,
   ro ECC_WIN, ro ECC_ADDR_LO, ro ECC_ADDR_HI, ro ECC_CADDR_LO, ro ECC_CADDR_HI, ro ECC_SYND,
   ⟨ECC_INJ, 6, 0, 0, 1, 2⟩]

def NSC_RD_LO : Nat := 0x040
def NSC_RD_HI : Nat := 0x044
def NSC_WR_LO : Nat := 0x048
def NSC_WR_HI : Nat := 0x04C
def NSC_FLAG_LO : Nat := 0x050
def NSC_FLAG_HI : Nat := 0x054
/-- Registers of NSC. -/
def tabNsc : List RegSpec :=
  [ro NSC_RD_LO, ro NSC_RD_HI, ro NSC_WR_LO, ro NSC_WR_HI, ro NSC_FLAG_LO, ro NSC_FLAG_HI]

def FMC_CFG : Nat := 0x040
def FMC_CHAN0 : Nat := 0x044
def FMC_CHAN1 : Nat := 0x048
def FMC_CHAN2 : Nat := 0x04C
def FMC_CHAN3 : Nat := 0x050
def FMC_CCHIT_LO : Nat := 0x058
def FMC_CCHIT_HI : Nat := 0x05C
def FMC_CCMISS_LO : Nat := 0x060
def FMC_CCMISS_HI : Nat := 0x064
def FMC_RD_LO : Nat := 0x068
def FMC_RD_HI : Nat := 0x06C
def FMC_WR_LO : Nat := 0x070
def FMC_WR_HI : Nat := 0x074
/-- Registers of FMC. -/
def tabFmc : List RegSpec :=
  [⟨FMC_CFG, 0, 1, 0, 0, 0⟩, rwAt FMC_CHAN0 0x10000 0xFF00, rwAt FMC_CHAN1 0x10000 0xFF00,
   rwAt FMC_CHAN2 0x10000 0xFF00, rwAt FMC_CHAN3 0x10000 0xFF00, ro FMC_CCHIT_LO, ro FMC_CCHIT_HI, ro FMC_CCMISS_LO,
   ro FMC_CCMISS_HI, ro FMC_RD_LO, ro FMC_RD_HI, ro FMC_WR_LO, ro FMC_WR_HI]

def STR_DTAB_LO : Nat := 0x040
def STR_DTAB_HI : Nat := 0x044
def STR_QUEUE : Nat := 0x048
def STR_CUR : Nat := 0x04C
def STR_FLT : Nat := 0x050
def STR_FLT_ADDR_LO : Nat := 0x054
def STR_FLT_ADDR_HI : Nat := 0x058
def STR_NACK : Nat := 0x05C
def STR_NACK_ADDR_LO : Nat := 0x060
def STR_NACK_ADDR_HI : Nat := 0x064
def STR_BYTES_LO : Nat := 0x068
def STR_BYTES_HI : Nat := 0x06C
/-- Registers of STR. -/
def tabStr : List RegSpec :=
  [rw STR_DTAB_LO 0xFFFFFFFF, rw STR_DTAB_HI 0xFFFFFFFF, ro STR_QUEUE, ro STR_CUR, ro STR_FLT, ro STR_FLT_ADDR_LO,
   ro STR_FLT_ADDR_HI, ro STR_NACK, ro STR_NACK_ADDR_LO, ro STR_NACK_ADDR_HI, ro STR_BYTES_LO, ro STR_BYTES_HI]

def MRK_SUBMIT_LO : Nat := 0x040
def MRK_SUBMIT_HI : Nat := 0x044
def MRK_CTL : Nat := 0x048
def MRK_FIT_STAT : Nat := 0x04C
def MRK_FIT_DETAIL : Nat := 0x050
def MRK_EPOCH_LO : Nat := 0x054
def MRK_EPOCH_HI : Nat := 0x058
def MRK_REFIT : Nat := 0x05C
def MRK_BIND_SEL : Nat := 0x060
def MRK_BIND : Nat := 0x064
def MRK_PAIR_A : Nat := 0x068
def MRK_PAIR_A_FLAG : Nat := 0x06C
def MRK_PAIR_B : Nat := 0x070
def MRK_PAIR_B_FLAG : Nat := 0x074
def MRK_BAL_LO : Nat := 0x078
def MRK_BAL_HI : Nat := 0x07C
def MRK_MIG_LO : Nat := 0x080
def MRK_MIG_HI : Nat := 0x084
def MRK_MIG_ABORT : Nat := 0x088
def MRK_CFG : Nat := 0x08C
def MRK_FLOWS : Nat := 0x090
/-- Registers of MRK. -/
def tabMrk : List RegSpec :=
  [rw MRK_SUBMIT_LO 0xFFFFFFFF, rw MRK_SUBMIT_HI 0xFFFFFFFF, ⟨MRK_CTL, 0x3F, 0, 0, 0x700, 0⟩, ro MRK_FIT_STAT,
   ro MRK_FIT_DETAIL, ro MRK_EPOCH_LO, ro MRK_EPOCH_HI, ro MRK_REFIT, rw MRK_BIND_SEL 0x3FF3F, ro MRK_BIND,
   ro MRK_PAIR_A, ro MRK_PAIR_A_FLAG, ro MRK_PAIR_B, ro MRK_PAIR_B_FLAG, ro MRK_BAL_LO, ro MRK_BAL_HI] ++
  [ro MRK_MIG_LO, ro MRK_MIG_HI, ro MRK_MIG_ABORT, rwAt MRK_CFG 0x1FFFF 0x11388, roAt MRK_FLOWS 0x4000]

def MSH_POS : Nat := 0x040
def MSH_CFG : Nat := 0x044
def MSH_TBL : Nat := 0x048
def MSH_RT_SEL : Nat := 0x04C
def MSH_RT : Nat := 0x050
def MSH_PORT_SEL : Nat := 0x054
def MSH_FLITS_LO : Nat := 0x058
def MSH_FLITS_HI : Nat := 0x05C
def MSH_HIST : Nat := 0x060
def MSH_COMB_LO : Nat := 0x064
def MSH_COMB_HI : Nat := 0x068
def MSH_NACK : Nat := 0x06C
def MSH_ECC : Nat := 0x070
def MSH_HOLD : Nat := 0x074
/-- Registers of MSH. -/
def tabMsh : List RegSpec :=
  [ro MSH_POS, ⟨MSH_CFG, 3, 0, 0, 0x100, 3⟩, rw MSH_TBL 7, rw MSH_RT_SEL 0x1FF, rwAt MSH_RT 0x1F7 0x100,
   rw MSH_PORT_SEL 0x3F, ro MSH_FLITS_LO, ro MSH_FLITS_HI, ro MSH_HIST, ro MSH_COMB_LO, ro MSH_COMB_HI, ro MSH_NACK,
   ro MSH_ECC, ro MSH_HOLD]

def LNK_CFG : Nat := 0x040
def LNK_STATE : Nat := 0x044
def LNK_PEER : Nat := 0x048
def LNK_FEC_CORR_LO : Nat := 0x04C
def LNK_FEC_CORR_HI : Nat := 0x050
def LNK_FEC_UNC : Nat := 0x054
def LNK_RETRY : Nat := 0x058
def LNK_LOST : Nat := 0x05C
def LNK_CREDIT_SEL : Nat := 0x060
def LNK_CREDIT : Nat := 0x064
def LNK_VCFG : Nat := 0x068
def LNK_VCNT : Nat := 0x06C
def LNK_VWIN : Nat := 0x070
def LNK_VLOG_SEL : Nat := 0x074
def LNK_VLOG : Nat := 0x078
def LNK_VLOG_HEAD : Nat := 0x07C
def LNK_HIST_SEL : Nat := 0x080
def LNK_HIST : Nat := 0x084
def LNK_CTL : Nat := 0x088
/-- Registers of LNK. -/
def tabLnk : List RegSpec :=
  [rwAt LNK_CFG 0xFFFFFF01 0xBB81001, roAt LNK_STATE 1, ro LNK_PEER, ro LNK_FEC_CORR_LO, ro LNK_FEC_CORR_HI,
   ro LNK_FEC_UNC, ro LNK_RETRY, ro LNK_LOST, rw LNK_CREDIT_SEL 0xF, ro LNK_CREDIT, rwAt LNK_VCFG 0xFFFFFF 0x100010,
   ro LNK_VCNT, ro LNK_VWIN, rw LNK_VLOG_SEL 0xF3F, ro LNK_VLOG, ro LNK_VLOG_HEAD] ++
  [rw LNK_HIST_SEL 7, ro LNK_HIST, ⟨LNK_CTL, 0, 0, 0, 1, 0⟩]

def FAB_CFG : Nat := 0x040
def FAB_FLOW_SEL : Nat := 0x044
def FAB_FLOW : Nat := 0x048
def FAB_FLOW_PEER : Nat := 0x04C
def FAB_FLOW_OUT : Nat := 0x050
def FAB_FLOW_SENT_LO : Nat := 0x054
def FAB_FLOW_SENT_HI : Nat := 0x058
def FAB_FLOW_LANDED_LO : Nat := 0x05C
def FAB_FLOW_LANDED_HI : Nat := 0x060
def FAB_FLOW_CTL : Nat := 0x064
def FAB_MC_CFG : Nat := 0x068
def FAB_MC_SEL : Nat := 0x06C
def FAB_MC : Nat := 0x070
def FAB_LOST : Nat := 0x074
def FAB_CMAP_BASE_LO : Nat := 0x078
def FAB_CMAP_BASE_HI : Nat := 0x07C
def FAB_CMAP_CTL : Nat := 0x080
def FAB_VIOL : Nat := 0x084
def FAB_MCHOLD : Nat := 0x088
/-- Registers of FAB. -/
def tabFab : List RegSpec :=
  [rwAt FAB_CFG 0xFFFF 0xC8, rw FAB_FLOW_SEL 0x3FFF, ro FAB_FLOW, ro FAB_FLOW_PEER, ro FAB_FLOW_OUT,
   ro FAB_FLOW_SENT_LO, ro FAB_FLOW_SENT_HI, ro FAB_FLOW_LANDED_LO, ro FAB_FLOW_LANDED_HI,
   ⟨FAB_FLOW_CTL, 0, 0, 0, 1, 0⟩, rwAt FAB_MC_CFG 0xFFFF 0x64, rw FAB_MC_SEL 0x3FF, ro FAB_MC, ro FAB_LOST,
   rw FAB_CMAP_BASE_LO 0xFFFFFFFF, rw FAB_CMAP_BASE_HI 0xFFFFFFFF] ++
  [rwAt FAB_CMAP_CTL 0xFFF 0x80, ro FAB_VIOL, ro FAB_MCHOLD]

def PRS_CTX_SEL : Nat := 0x040
def PRS_CTL : Nat := 0x044
def PRS_BKT_LO : Nat := 0x048
def PRS_BKT_HI : Nat := 0x04C
def PRS_BKT_N : Nat := 0x050
def PRS_SHD_LO : Nat := 0x054
def PRS_SHD_HI : Nat := 0x058
def PRS_RCP_LO : Nat := 0x05C
def PRS_RCP_HI : Nat := 0x060
def PRS_FLAGS : Nat := 0x064
def PRS_VFLAGS : Nat := 0x068
def PRS_FENCE_CNT : Nat := 0x06C
def PRS_VWORD_LO : Nat := 0x070
def PRS_VWORD_HI : Nat := 0x074
def PRS_VDEV : Nat := 0x078
def PRS_VGRP : Nat := 0x07C
def PRS_VPREV_LO : Nat := 0x080
def PRS_VPREV_HI : Nat := 0x084
def PRS_STEP_LO : Nat := 0x088
def PRS_STEP_HI : Nat := 0x08C
def PRS_WC_LO : Nat := 0x090
def PRS_WC_HI : Nat := 0x094
def PRS_WC_LEN_LO : Nat := 0x098
def PRS_WC_LEN_HI : Nat := 0x09C
def PRS_WC_STRIDE_LO : Nat := 0x0A0
def PRS_WC_STRIDE_HI : Nat := 0x0A4
def PRS_TAG0 : Nat := 0x0A8
def PRS_TAG1 : Nat := 0x0AC
def PRS_LS : Nat := 0x0B0
def PRS_LSCFG : Nat := 0x0B4
def PRS_RNG_KEY_LO : Nat := 0x0B8
def PRS_RNG_KEY_HI : Nat := 0x0BC
def PRS_DG_LO : Nat := 0x0C0
def PRS_DG_HI : Nat := 0x0C4
def PRS_DG_CFG : Nat := 0x0C8
def PRS_ERR : Nat := 0x0D0
def PRS_ERR_ADDR_LO : Nat := 0x0D4
def PRS_ERR_ADDR_HI : Nat := 0x0D8
def PRS_DGM : Nat := 0x0DC
def PRS_DGM_PEER : Nat := 0x0E0
def PRS_DGM_STEP_LO : Nat := 0x0E4
def PRS_DGM_STEP_HI : Nat := 0x0E8
def PRS_COMMITS : Nat := 0x0EC
def PRS_SKIPS : Nat := 0x0F0
def PRS_PARAMS_LO : Nat := 0x0F4
def PRS_PARAMS_HI : Nat := 0x0F8
def PRS_TRK_SEL : Nat := 0x100
def PRS_TRK_CFG : Nat := 0x104
def PRS_TRK_CUR : Nat := 0x108
def PRS_TRK_HIST : Nat := 0x10C
def PRS_TRK_ADVANCE : Nat := 0x110
/-- Registers of PRS. -/
def tabPrs : List RegSpec :=
  [rw PRS_CTX_SEL 0x3F, rw PRS_CTL 1, rw PRS_BKT_LO 0xFFFFFFFF, rw PRS_BKT_HI 0xFFFFFFFF, rw PRS_BKT_N 0x1FFF,
   rw PRS_SHD_LO 0xFFFFFFFF, rw PRS_SHD_HI 0xFFFFFFFF, rw PRS_RCP_LO 0xFFFFFFFF, rw PRS_RCP_HI 0xFFFFFFFF,
   rw PRS_FLAGS 0x3FFF3FFF, rw PRS_VFLAGS 0x3FFF3FFF, rwAt PRS_FENCE_CNT 0xFFFF 1, rw PRS_VWORD_LO 0xFFFFFFFF,
   rw PRS_VWORD_HI 0xFFFFFFFF, rw PRS_VDEV 0x7FFF, rw PRS_VGRP 0x3FF03FF] ++
  [rw PRS_VPREV_LO 0xFFFFFFFF, rw PRS_VPREV_HI 0xFFFFFFFF, rw PRS_STEP_LO 0xFFFFFFFF, rw PRS_STEP_HI 0xFFFFFFFF,
   rw PRS_WC_LO 0xFFFFFFFF, rw PRS_WC_HI 0xFFFFFFFF, rw PRS_WC_LEN_LO 0xFFFFFFFF, rw PRS_WC_LEN_HI 0xFFFFFFFF,
   rw PRS_WC_STRIDE_LO 0xFFFFFFFF, rw PRS_WC_STRIDE_HI 0xFFFFFFFF, roAt PRS_TAG0 0xFFFFFFFF,
   roAt PRS_TAG1 0xFFFFFFFF, rw PRS_LS 0xFFFFFF, rwAt PRS_LSCFG 0xFFFFFFFF 0x7D012000, rw PRS_RNG_KEY_LO 0xFFFFFFFF,
   rw PRS_RNG_KEY_HI 0xFFFFFFFF] ++
  [rw PRS_DG_LO 0xFFFFFFFF, rw PRS_DG_HI 0xFFFFFFFF, rw PRS_DG_CFG 0x3FFFF, ro PRS_ERR, ro PRS_ERR_ADDR_LO,
   ro PRS_ERR_ADDR_HI, ro PRS_DGM, ro PRS_DGM_PEER, ro PRS_DGM_STEP_LO, ro PRS_DGM_STEP_HI, ro PRS_COMMITS,
   ro PRS_SKIPS, ro PRS_PARAMS_LO, ro PRS_PARAMS_HI, rw PRS_TRK_SEL 0xFFF, rw PRS_TRK_CFG 0x1FFFFF] ++
  [rw PRS_TRK_CUR 0xFFFFFFFF, rw PRS_TRK_HIST 0xFFFFFFFF, ⟨PRS_TRK_ADVANCE, 0, 0, 0, 0xFFFFFFFF, 0⟩]

def SNP_CTX_SEL : Nat := 0x040
def SNP_CTL : Nat := 0x044
def SNP_REC_LO : Nat := 0x048
def SNP_REC_HI : Nat := 0x04C
def SNP_FEED_LO : Nat := 0x050
def SNP_FEED_HI : Nat := 0x054
def SNP_FEED_LEN : Nat := 0x058
def SNP_AXES : Nat := 0x05C
def SNP_FLOWS : Nat := 0x060
def SNP_LAST_CAP_LO : Nat := 0x064
def SNP_LAST_CAP_HI : Nat := 0x068
def SNP_RESTORE_STEP_LO : Nat := 0x06C
def SNP_RESTORE_STEP_HI : Nat := 0x070
def SNP_RESUME_LO : Nat := 0x074
def SNP_RESUME_HI : Nat := 0x078
def SNP_RELAY : Nat := 0x07C
def SNP_IMG_LO : Nat := 0x080
def SNP_IMG_HI : Nat := 0x084
def SNP_IMG_LEN_LO : Nat := 0x088
def SNP_IMG_LEN_HI : Nat := 0x08C
def SNP_SNAP_STEP_LO : Nat := 0x090
def SNP_SNAP_STEP_HI : Nat := 0x094
def SNP_PAR_LO : Nat := 0x098
def SNP_PAR_HI : Nat := 0x09C
def SNP_PAR_LEN_LO : Nat := 0x0A0
def SNP_PAR_LEN_HI : Nat := 0x0A4
def SNP_PAR_GEN_LO : Nat := 0x0A8
def SNP_PAR_GEN_HI : Nat := 0x0AC
def SNP_ERR : Nat := 0x0B0
def SNP_ERR_ADDR_LO : Nat := 0x0B4
def SNP_ERR_ADDR_HI : Nat := 0x0B8
def SNP_BYTES_LO : Nat := 0x0BC
def SNP_BYTES_HI : Nat := 0x0C0
/-- Registers of SNP. -/
def tabSnp : List RegSpec :=
  [rw SNP_CTX_SEL 0x3F, ⟨SNP_CTL, 0x3F, 0, 0, 0x1F00, 0⟩, rw SNP_REC_LO 0xFFFFFFFF, rw SNP_REC_HI 0xFFFFFFFF,
   rw SNP_FEED_LO 0xFFFFFFFF, rw SNP_FEED_HI 0xFFFFFFFF, rw SNP_FEED_LEN 0x1FFF, rwAt SNP_AXES 0xFF070F 0x10008,
   rw SNP_FLOWS 0x3FFF, roAt SNP_LAST_CAP_LO 0xFFFFFFFF, roAt SNP_LAST_CAP_HI 0xFFFFFFFF,
   rw SNP_RESTORE_STEP_LO 0xFFFFFFFF, rw SNP_RESTORE_STEP_HI 0xFFFFFFFF, rw SNP_RESUME_LO 0xFFFFFFFF,
   rw SNP_RESUME_HI 0xFFFFFFFF, rw SNP_RELAY 0x7FFF] ++
  [rw SNP_IMG_LO 0xFFFFFFFF, rw SNP_IMG_HI 0xFFFFFFFF, rw SNP_IMG_LEN_LO 0xFFFFFFFF, rw SNP_IMG_LEN_HI 0xFFFFFFFF,
   rw SNP_SNAP_STEP_LO 0xFFFFFFFF, rw SNP_SNAP_STEP_HI 0xFFFFFFFF, rw SNP_PAR_LO 0xFFFFFFFF,
   rw SNP_PAR_HI 0xFFFFFFFF, rw SNP_PAR_LEN_LO 0xFFFFFFFF, rw SNP_PAR_LEN_HI 0xFFFFFFFF,
   roAt SNP_PAR_GEN_LO 0xFFFFFFFF, roAt SNP_PAR_GEN_HI 0xFFFFFFFF, ro SNP_ERR, ro SNP_ERR_ADDR_LO,
   ro SNP_ERR_ADDR_HI, ro SNP_BYTES_LO] ++
  [ro SNP_BYTES_HI]

def RST_BOOT : Nat := 0x040
def RST_STEP0 : Nat := 0x044
def RST_STEP1 : Nat := 0x048
def RST_STEP2 : Nat := 0x04C
def RST_STEP3 : Nat := 0x050
def RST_STEP4 : Nat := 0x054
def RST_STEP5 : Nat := 0x058
def RST_WDOG : Nat := 0x060
def RST_WDOG_KICK : Nat := 0x064
def RST_HB : Nat := 0x068
def RST_CFG : Nat := 0x06C
def RST_DRAIN0 : Nat := 0x070
def RST_DRAIN1 : Nat := 0x074
def RST_CTX_RESET : Nat := 0x078
def RST_BIST_CNT : Nat := 0x07C
def RST_BIST_ID : Nat := 0x080
def RST_BIST_INFO : Nat := 0x084
def RST_REC_SEL : Nat := 0x088
def RST_REC : Nat := 0x08C
def RST_REC_NUM_LO : Nat := 0x090
def RST_REC_NUM_HI : Nat := 0x094
def RST_REC_US : Nat := 0x098
def RST_REC_HEAD : Nat := 0x09C
def RST_FW : Nat := 0x0A0
/-- Registers of RST. -/
def tabRst : List RegSpec :=
  [ro RST_BOOT, ro RST_STEP0, ro RST_STEP1, ro RST_STEP2, ro RST_STEP3, ro RST_STEP4, ro RST_STEP5,
   ⟨RST_WDOG, 0, 0xFFFF, 0, 0, 0x64⟩, ⟨RST_WDOG_KICK, 0, 0, 0, 1, 0⟩, rw RST_HB 0x10000,
   rwAt RST_CFG 0xFFFFFFFF 0x64320A01, rwAt RST_DRAIN0 0xFFFFFFFF 0x6401F4, rwAt RST_DRAIN1 0xFFFFFFFF 0x271000C8,
   ⟨RST_CTX_RESET, 0, 0, 0, 0x13F, 0⟩, ro RST_BIST_CNT, ro RST_BIST_ID] ++
  [ro RST_BIST_INFO, rw RST_REC_SEL 0xF, ro RST_REC, ro RST_REC_NUM_LO, ro RST_REC_NUM_HI, ro RST_REC_US,
   ro RST_REC_HEAD, ⟨RST_FW, 0, 0, 0, 0x10000000, 0⟩]

def PWR_CAP_HOST : Nat := 0x040
def PWR_CAP_TRAY : Nat := 0x044
def PWR_BUDGET : Nat := 0x048
def PWR_RATING : Nat := 0x04C
def PWR_IN : Nat := 0x050
def PWR_ENERGY_LO : Nat := 0x054
def PWR_ENERGY_HI : Nat := 0x058
def PWR_SAG : Nat := 0x05C
def PWR_TAPE_CFG : Nat := 0x060
def PWR_BINCAP : Nat := 0x064
def PWR_PLAN : Nat := 0x068
def PWR_SHORT : Nat := 0x06C
def PWR_CLU_SEL : Nat := 0x070
def PWR_CLU : Nat := 0x074
def PWR_THERM : Nat := 0x078
def PWR_RAIL_SEL : Nat := 0x07C
def PWR_RAIL : Nat := 0x080
def PWR_THROTTLE : Nat := 0x084
def PWR_BUCKET : Nat := 0x088
/-- Registers of PWR. -/
def tabPwr : List RegSpec :=
  [rw PWR_CAP_HOST 0xFFFF, ro PWR_CAP_TRAY, ro PWR_BUDGET, ro PWR_RATING, ro PWR_IN, ro PWR_ENERGY_LO,
   ro PWR_ENERGY_HI, rwAt PWR_SAG 0x103FF 0x26C, rwAt PWR_TAPE_CFG 7 0x1B00004, roAt PWR_BINCAP 0x76C,
   ⟨PWR_PLAN, 0, 0xFFFFFF, 0, 0, 0x540314⟩, ro PWR_SHORT, rw PWR_CLU_SEL 0x1F, ro PWR_CLU, rwAt PWR_THERM 0xFF 0x5F,
   rw PWR_RAIL_SEL 0x3F] ++
  [ro PWR_RAIL, ro PWR_THROTTLE, roAt PWR_BUCKET 0x1770]

def AGE_CFG : Nat := 0x040
def AGE_TARGET : Nat := 0x044
def AGE_LIMITS : Nat := 0x048
def AGE_SEL : Nat := 0x04C
def AGE_CLU : Nat := 0x050
def AGE_SRAM : Nat := 0x054
def AGE_STRETCH_MAX : Nat := 0x058
def AGE_SAMPLES_LO : Nat := 0x05C
def AGE_SAMPLES_HI : Nat := 0x060
def AGE_LATE : Nat := 0x064
/-- Registers of AGE. -/
def tabAge : List RegSpec :=
  [rwAt AGE_CFG 0x1FFFF 0x1000A, rwAt AGE_TARGET 0xFFFFFF 0x280A28, rwAt AGE_LIMITS 0xFFFFFFFF 0x60F0A14,
   rw AGE_SEL 0x37F, roAt AGE_CLU 0x76C, ro AGE_SRAM, roAt AGE_STRETCH_MAX 5, ro AGE_SAMPLES_LO, ro AGE_SAMPLES_HI,
   ro AGE_LATE]

def SEL_AUTH : Nat := 0x040
def SEL_IND : Nat := 0x044
def SEL_CTR_SEL : Nat := 0x048
def SEL_CTR : Nat := 0x04C
def SEL_SERIAL_LO : Nat := 0x050
def SEL_SERIAL_HI : Nat := 0x054
def SEL_OWNER : Nat := 0x058
def SEL_KAT : Nat := 0x05C
def SEL_ENT : Nat := 0x060
def SEL_RESEED : Nat := 0x064
/-- Registers of SEL. -/
def tabSel : List RegSpec :=
  [ro SEL_AUTH, ro SEL_IND, rw SEL_CTR_SEL 0x3F, ro SEL_CTR, ro SEL_SERIAL_LO, ro SEL_SERIAL_HI, ro SEL_OWNER,
   ro SEL_KAT, ro SEL_ENT, ro SEL_RESEED]

def LOG_CHAIN_LO : Nat := 0x040
def LOG_CHAIN_HI : Nat := 0x044
def LOG_SEQ_LO : Nat := 0x048
def LOG_SEQ_HI : Nat := 0x04C
def LOG_HASH0 : Nat := 0x050
def LOG_HASH1 : Nat := 0x054
def LOG_HASH2 : Nat := 0x058
def LOG_HASH3 : Nat := 0x05C
def LOG_HASH4 : Nat := 0x060
def LOG_HASH5 : Nat := 0x064
def LOG_HASH6 : Nat := 0x068
def LOG_HASH7 : Nat := 0x06C
def LOG_HSEQ_LO : Nat := 0x070
def LOG_HSEQ_HI : Nat := 0x074
def LOG_HBASE_LO : Nat := 0x078
def LOG_HBASE_HI : Nat := 0x07C
def LOG_HLINK_LO : Nat := 0x080
def LOG_HLINK_HI : Nat := 0x084
def LOG_HSIZE : Nat := 0x088
def LOG_HWR_LO : Nat := 0x08C
def LOG_HWR_HI : Nat := 0x090
def LOG_HACK_LO : Nat := 0x094
def LOG_HACK_HI : Nat := 0x098
def LOG_HWM : Nat := 0x09C
def LOG_LOST : Nat := 0x0A0
def LOG_CTL : Nat := 0x0A4
def LOG_SEAL : Nat := 0x0A8
def LOG_FREAD_SEL : Nat := 0x0AC
def LOG_FREAD : Nat := 0x0B0
def LOG_UNDRAINED : Nat := 0x0B4
/-- Registers of LOG. -/
def tabLog : List RegSpec :=
  [ro LOG_CHAIN_LO, ro LOG_CHAIN_HI, ro LOG_SEQ_LO, ro LOG_SEQ_HI, ro LOG_HASH0, ro LOG_HASH1, ro LOG_HASH2,
   ro LOG_HASH3, ro LOG_HASH4, ro LOG_HASH5, ro LOG_HASH6, ro LOG_HASH7, ro LOG_HSEQ_LO, ro LOG_HSEQ_HI,
   rw LOG_HBASE_LO 0xFFFFFFFF, rw LOG_HBASE_HI 0xFFFFFFFF] ++
  [rw LOG_HLINK_LO 0xFFFFFFFF, rw LOG_HLINK_HI 0xFFFFFFFF, rwAt LOG_HSIZE 0x1001F 0x10, ro LOG_HWR_LO,
   ro LOG_HWR_HI, rw LOG_HACK_LO 0xFFFFFFFF, rw LOG_HACK_HI 0xFFFFFFFF, rwAt LOG_HWM 0x1FFFFF 0x1000, ro LOG_LOST,
   ⟨LOG_CTL, 0, 0, 0, 3, 0⟩, ro LOG_SEAL, rw LOG_FREAD_SEL 0x7FFF3F, ro LOG_FREAD, ro LOG_UNDRAINED]

def PCI_BAR4_BASE_LO : Nat := 0x040
def PCI_BAR4_BASE_HI : Nat := 0x044
def PCI_LINK : Nat := 0x048
def PCI_GRANT_SEL : Nat := 0x04C
def PCI_GRANT : Nat := 0x050
def PCI_GRANT_BASE : Nat := 0x054
def PCI_GRANT_LEN : Nat := 0x058
def PCI_VF4BASE_SEL : Nat := 0x05C
def PCI_VF4BASE : Nat := 0x060
def PCI_MSIX_SEL : Nat := 0x064
def PCI_MSIX_MAP : Nat := 0x068
def PCI_ALERT_EN : Nat := 0x06C
def PCI_I3C : Nat := 0x070
def PCI_PIN : Nat := 0x074
def PCI_PIN_SEL : Nat := 0x078
def PCI_GLITCH : Nat := 0x07C
def PCI_PINLOG_SEL : Nat := 0x080
def PCI_PINLOG : Nat := 0x084
def PCI_PINLOG_NUM_LO : Nat := 0x088
def PCI_PINLOG_NUM_HI : Nat := 0x08C
def PCI_PIN_STRAY : Nat := 0x090
def PCI_STUCK : Nat := 0x094
def PCI_ERRLOG_SEL : Nat := 0x098
def PCI_ERRLOG : Nat := 0x09C
def PCI_LCW : Nat := 0x0A0
/-- Registers of PCI. -/
def tabPci : List RegSpec :=
  [rw PCI_BAR4_BASE_LO 0xFFFFFFFF, rw PCI_BAR4_BASE_HI 0xFFFFFFFF, ro PCI_LINK, rw PCI_GRANT_SEL 0x73F,
   rw PCI_GRANT 0x80000001, rw PCI_GRANT_BASE 0x1FFFFFFF, rw PCI_GRANT_LEN 0x1FFFFFFF, rw PCI_VF4BASE_SEL 0x3F,
   rw PCI_VF4BASE 0x1FFFFFF, rw PCI_MSIX_SEL 0xF, rw PCI_MSIX_MAP 0x3FF, rwAt PCI_ALERT_EN 0xFFFF00 0x18000,
   ro PCI_I3C, ro PCI_PIN, rw PCI_PIN_SEL 7, ro PCI_GLITCH] ++
  [rw PCI_PINLOG_SEL 0xF, ro PCI_PINLOG, ro PCI_PINLOG_NUM_LO, ro PCI_PINLOG_NUM_HI, ro PCI_PIN_STRAY, ro PCI_STUCK,
   rw PCI_ERRLOG_SEL 0xFF, ro PCI_ERRLOG, rw PCI_LCW 0x3F]


/-! ### Register sets inside a window -/

/-- Offsets within a stream set (R190). -/
def S_BASE_LO : Nat := 0x00
def S_BASE_HI : Nat := 0x04
def S_SIZE : Nat := 0x08
def S_CTL : Nat := 0x0C
def S_TAILADDR_LO : Nat := 0x10
def S_TAILADDR_HI : Nat := 0x14
def S_HEAD_LO : Nat := 0x18
def S_HEAD_HI : Nat := 0x1C
def S_TAIL_LO : Nat := 0x20
def S_TAIL_HI : Nat := 0x24
def S_COUNT_LO : Nat := 0x28
def S_COUNT_HI : Nat := 0x2C
def S_BRK_COUNT_LO : Nat := 0x30
def S_BRK_COUNT_HI : Nat := 0x34
def S_BRK_TAG : Nat := 0x38
def S_SREG_SEL : Nat := 0x40
def S_SREG_LO : Nat := 0x44
def S_SREG_HI : Nat := 0x48

def all32 : Nat := 0xFFFFFFFF

/-- A stream set (R190). CTL: ENABLE and the break enables are RW, RESUME is WO, the rest is maintained. -/
def tabStream : List RegSpec :=
  [rw S_BASE_LO all32, rw S_BASE_HI all32, rwAt S_SIZE 0x1F 12, ⟨S_CTL, 0x19, 0, 0, 2, 0⟩,
   rw S_TAILADDR_LO all32, rw S_TAILADDR_HI all32, rw S_HEAD_LO all32, rw S_HEAD_HI all32,
   ro S_TAIL_LO, ro S_TAIL_HI, rw S_COUNT_LO all32, rw S_COUNT_HI all32,
   rw S_BRK_COUNT_LO all32, rw S_BRK_COUNT_HI all32, rwAt S_BRK_TAG all32 0xFFFF0000,
   rw S_SREG_SEL 0xF, rw S_SREG_LO all32, rw S_SREG_HI all32]

/-- Offsets within a descriptor set (R147). -/
def D_BASE : Nat := 0x00
def D_FMT : Nat := 0x04
def D_META_BASE : Nat := 0x08
def D_META_PITCH : Nat := 0x0C
def D_SCALE_BASE : Nat := 0x10
def D_SCALE_PITCH : Nat := 0x14
def D_OCC_BASE : Nat := 0x18
def D_OCC_PITCH : Nat := 0x1C
def D_LVL_CFG (l : Nat) : Nat := 0x20 + 8 * l
def D_LVL_STRIDE (l : Nat) : Nat := 0x24 + 8 * l
def D_WIN_CFG (w : Nat) : Nat := 0x50 + 0x10 * w
def D_WIN_PAD (w : Nat) : Nat := 0x54 + 0x10 * w
def D_WIN_STRIDE (w : Nat) : Nat := 0x58 + 0x10 * w

/-- A descriptor set (R147). -/
def tabDesc : List RegSpec :=
  [rw D_BASE 0x7FFFFF, rw D_FMT 0x3F, rw D_META_BASE 0x7FFFFF, rw D_META_PITCH 0xFFFF, rw D_SCALE_BASE 0x7FFFFF,
   rw D_SCALE_PITCH 0xFFFF, rw D_OCC_BASE 0x7FFFFF, rw D_OCC_PITCH 0xFFFF] ++
  (List.range 6).flatMap (fun l => [rw (D_LVL_CFG l) 0xFFFFF, rw (D_LVL_STRIDE l) all32]) ++
  (List.range 2).flatMap (fun w => [rwAt (D_WIN_CFG w) all32 0x01010000, rw (D_WIN_PAD w) 0xFFFF, rw (D_WIN_STRIDE w) all32])

/-- A register set moved to its place. -/
def atOff (o : Nat) (t : List RegSpec) : List RegSpec := t.map fun s => { s with off := s.off + o }

/-- The number of streams of a core (R151). -/
def nStreams (c : CoreRef) : Nat := if isScalar c then 8 else 4

/-- The offset of stream set n in the sequencer's window (R188). -/
def streamOff (n : Nat) : Nat := 0x100 + 0x80 * n

/-- The offset of descriptor set n of feeder f (R147). -/
def descOff (f n : Nat) : Nat := 0x100 + 0x400 * f + 0x80 * n

/-- The ECC group with the scrub period of the block's kind (R246): seconds in NSC and FMC; LMM is fixed by R222. -/
def eccGroup (b : Blk) : List RegSpec :=
  tabEcc.map fun s => if s.off = ECC_SCRUB then
    (match b with
     | .nsc _ _ => rwAt ECC_SCRUB 0xFFFF0001 0x003C0001
     | .fmc _ _ => rwAt ECC_SCRUB 0xFFFF0001 0x0E100001
     | _ => rwAt ECC_SCRUB 1 1) else s

/-- The block-specific registers of a block, from 0x040 (R41). -/
def blkTable : Blk → List RegSpec
  | .glb => tabGlb | .mgc => [] | .sel => tabSel | .clk => [] | .pwr => tabPwr | .age => tabAge | .tck => tabTck
  | .log => tabLog | .pci => tabPci | .mrk => tabMrk | .fab => tabFab | .rst => tabRst | .dbg => []
  | .die _ => tabDie
  | .prs d => if d = 0 then tabPrs else tabPrs.filter fun s => s.off = PRS_CTX_SEL || (decide (PRS_ERR ≤ s.off) && decide (s.off < PRS_TRK_SEL))
  | .snp d => if d = 0 then tabSnp else tabSnp.filter fun s => s.off = SNP_CTX_SEL
  | .rstd _ => tabRst.filter fun s => decide (RST_CFG ≤ s.off) && s.off != RST_CTX_RESET && s.off != RST_FW
  | .nsc d i => tabNsc ++ eccGroup (.nsc d i)
  | .fmc d i => tabFmc ++ eccGroup (.fmc d i)
  | .lnk _ _ => tabLnk | .msh _ _ => tabMsh | .clu _ _ => tabClu | .str _ _ _ => tabStr | .cor _ => []
  | .seq c => tabSeq ++ (List.range (nStreams c)).flatMap (fun n => atOff (streamOff n) tabStream) ++
      (if isVector c then tabVcr else [])
  | .arr _ => tabArr
  | .fed _ => tabFed ++ (List.range 2).flatMap fun f => (List.range 8).flatMap fun n => atOff (descOff f n) tabDesc
  | .vec _ => tabVec | .txb _ => tabTxb | .sct _ => tabSct
  | .lmm c => (if isMatrix c then tabLmm else []) ++ eccGroup (.lmm c)

/-- The implemented block-specific EVENT bits of a leaf block, or the child bits of a summary (R50). -/
def eventMask : Blk → Nat
  | .arr _ | .tck | .mrk | .msh _ _ | .fab | .prs _ | .pwr | .sel => 0x300
  | .lnk _ _ | .log | .pci => 0x700
  | .snp _ => 0x1F00
  | .rst | .rstd _ | .age => 0xF00
  | .fmc _ _ | .str _ _ _ => 0x100
  | .cor c => if isMatrix c then 0x7F00 else 0x300
  | .clu _ _ => 0x3FFF00
  | .die _ => 0x7FFF00
  | .glb => 0xFFFF00
  | _ => 0

/-- The header registers of a block (R41 to R48, R56). EVENT bits are W1C in a leaf block (R49). -/
def tabHeader (b : Blk) : List RegSpec :=
  [ro R_ID, ro R_VERSION, ro R_CAPS0, ro R_CAPS1, ro R_STATUS,
   ⟨R_EVENT, 0, 0, if isSummary b then 0 else eventMask b ||| 3, 0, 0⟩,
   rwAt R_EVENT_EN (eventMask b ||| 3) (eventMask b ||| 3),
   ⟨R_FAULT, 0, 0, 0x80000000, 0, 0⟩, ⟨R_CTRL, 3, 0, 0, 4, 2⟩, ⟨R_PARITY, 0, 0, 1, 0, 0⟩,
   ⟨R_WPERM, 0, 0x800001FF, 0, 0, 0x21⟩]

/-- The first entry for an offset. -/
def findSpec : List RegSpec → Nat → Option RegSpec
  | [], _ => none
  | s :: t, o => if s.off = o then some s else findSpec t o

/-- The register at offset `o` of a block's normal view; none where the location is reserved (R52). -/
def regSpec (b : Blk) (o : Nat) : Option RegSpec :=
  if o < 0x40 || o = R_WPERM then findSpec (tabHeader b) o else findSpec (blkTable b) o

end Sys2Proof.Machine
end

