-- ==== Sys2Proof/Machine/Sparse.lean ====
section
/-! DEFINITION. Sparse stores: a list of (key, value) pairs with keys strictly rising and no pair equal to what an
unlisted key reads as, so that equal contents are equal lists. Memory, the register file and the tables of cores,
engines and links are held in this form. -/

namespace Sys2Proof.Machine.Sparse

variable {α : Type} [DecidableEq α]

/-- What key `k` holds; an unlisted key holds `dflt k`. -/
def get (dflt : Nat → α) : List (Nat × α) → Nat → α
  | [], k => dflt k
  | (a, v) :: m, k => if a = k then v else get dflt m k

/-- The pair put in front, unless it says what an unlisted key says anyway. -/
def consUnless (dflt : Nat → α) (k : Nat) (v : α) (m : List (Nat × α)) : List (Nat × α) :=
  if v = dflt k then m else (k, v) :: m

/-- The pair put in its place in a store that does not list `k`. -/
def put (dflt : Nat → α) : List (Nat × α) → Nat → α → List (Nat × α)
  | [], k, v => consUnless dflt k v []
  | (a, x) :: m, k, v => if k < a then consUnless dflt k v ((a, x) :: m) else (a, x) :: put dflt m k v

/-- The store with `v` at key `k`. -/
def set (dflt : Nat → α) (m : List (Nat × α)) (k : Nat) (v : α) : List (Nat × α) := put dflt (m.filter fun p => p.1 != k) k v

/-- The keys rise strictly and no value is the unlisted one. -/
def wf (dflt : Nat → α) : List (Nat × α) → Bool
  | [] => true
  | [(a, v)] => decide (v ≠ dflt a)
  | (a, v) :: (b, w) :: m => decide (v ≠ dflt a) && decide (a < b) && wf dflt ((b, w) :: m)

/-- The store with every key from `lo` to `lo + n - 1` back at its unlisted value. -/
def clearRange (lo n : Nat) (m : List (Nat × α)) : List (Nat × α) :=
  m.filter fun p => !(decide (lo ≤ p.1) && decide (p.1 < lo + n))

/-- The same for a rising list of marks (poisoned granules and the like): a mark put in. -/
def mark : List Nat → Nat → List Nat
  | [], k => [k]
  | a :: m, k => if k < a then k :: a :: m else if k = a then a :: m else a :: mark m k

/-- A mark taken out. -/
def unmark (m : List Nat) (k : Nat) : List Nat := m.filter (· != k)

/-- Marks from `lo` to `lo + n - 1` taken out. -/
def unmarkRange (lo n : Nat) (m : List Nat) : List Nat :=
  m.filter fun k => !(decide (lo ≤ k) && decide (k < lo + n))

end Sys2Proof.Machine.Sparse
end

