-- ==== Sys2Proof/Machine/State.lean ====
section
/-! DEFINITION. The state of the device as plain data, and the state after reset. -/

namespace Sys2Proof.Machine

/-- Why a step stops with a fault. No command of this device does: what the spec calls faults, refusals and NACKs are
effects on the device's own state. -/
inductive Fault where
  /-- Raised by no command; safe. -/
  | none
deriving DecidableEq, Repr

/-- Why a step is refused. -/
inductive Refusal where
  /-- Raised by the arm of a command that has no meaning yet; safe. -/
  | notModelled (mnemonic : String)
deriving DecidableEq, Repr

/-- A change-log entry (R487). -/
structure LogEntry where
  stitch : Nat := 0
  cycles : Nat := 0
  cls : Nat := 0
  id : Nat := 0
  addr : Nat := 0
  old : Nat := 0
  new : Nat := 0
  seq : Nat := 0
  denied : Bool := false
  inReset : Bool := false
  armed : Bool := false
  boot : Bool := false
  alias_ : Bool := false
  code : Nat := 0
deriving DecidableEq, Repr

/-- The change log beside its registers (R489 to R492): entries held, newest first, and the hashes of completed blocks,
newest first, with H(-1) of the chain. -/
structure LogSt where
  ring : List LogEntry := []
  hashes : List (List Byte) := []
  h0 : List Byte := []
  /-- the acknowledged sequence as last applied, and the Stitch of the last seal of this start -/
  hack : Nat := 0
  lastSeal : Option Nat := none
deriving DecidableEq, Repr

/-- The module's flash, which keeps its contents without power (R31). Records of KIND 7 and 8 of the repair and map-out region are held as
the sets of the channels and routers they name. -/
structure FlashSt where
  /-- the two management images and the core firmware, as the last start found them: management firmware alone writes these regions (R31) -/
  mgmt : List MgmtImg := []
  coreFw : List CoreFw := []
  /-- repair and map-out records, oldest first (R432) -/
  repairs : List RepRec := []
  /-- ageing records, newest first (R466) -/
  ages : List AgeRec := []
  /-- the chain number of the header slot, seal records, newest first (R490, R493) -/
  chain : Nat := 0
  seals : List SealRec := []
  /-- far-memory channels recorded for map-out, and routers recorded for retirement, in package order (R231, R285) -/
  mapout : List Nat := []
  routers : List Nat := []
deriving DecidableEq, Repr

/-- The device and its module. -/
structure Dev where
  flash : FlashSt := {}
  /-- registers, by key (BAR0 offset of the normal view; banked registers further up); unlisted: the reset value -/
  regs : List (Nat × Word) := []
  /-- memories and flag store, by physical key; unlisted: 0 -/
  mem : List Host.Cell := []
  /-- poisoned granules, by physical key (R233) -/
  poison : List Nat := []
  /-- bit errors (bytes in far memory) that stored granules hold and no read has met yet, by physical key (R232) -/
  flaws : List (Nat × Nat) := []
  /-- granules whose corrected value is to be written back (R225, R232) -/
  wback : List Nat := []
  /-- memory blocks that have latched ECC_CORRECTED in the current window, by window base (R232) -/
  eccOnce : List Nat := []
  /-- far-memory channels in service since the start, in rank order (R230) -/
  farMap : List Nat := []
  /-- logical cores bound (R256): key `1024 ctx + 256 type + n`, value the core's key plus 1 -/
  binds : List (Nat × Nat) := []
  /-- registers whose stored bits disagree with their parity bit (R54) -/
  parityBad : List Nat := []
  /-- blocks in their safe state, by window base (R55) -/
  safe : List Nat := []
  /-- HI halves that LO reads have latched, for each register and origin (R111) -/
  hiLatch : List ((Nat × Nat × Nat) × Nat) := []
  /-- domains in reset (R53) -/
  resets : List Dom := []
  log : LogSt := {}
  cores : List (Nat × CoreSt) := []
  net : NetSt := {}
  tck : TckSt := {}
  /-- the Presses' contexts in service, by context -/
  press : List (Nat × PressSt) := []
  /-- the Bastes' contexts, by context -/
  snap : List (Nat × SnapSt) := []
  /-- reads of host memory not yet completed: tag, and who reads -/
  hostReads : List (Nat × Issuer) := []
  /-- jobs of the contexts, and FIT requests not yet served: context and pattern address (R252) -/
  jobs : List JobSt := []
  fits : List (Nat × Nat) := []
  /-- resets in progress -/
  runs : List ResetRun := []
  /-- firmware stores of the cores, by `2^19` times the core's key plus the offset (R442) -/
  fwStore : List (Nat × Byte) := []
  mod_ : ModSt := {}
  host : HostSt := {}
  tape : TapeSt := {}
  age : AgeSt := {}
  sel : SelSt := {}
  /-- the seal being written (R493) -/
  sealing : Option SealRec := none
  /-- accesses through the logical-core window held during a refit (R64) -/
  lcwHeld : List (Org × Nat × Nat × Option Nat) := []
  /-- WPERM as locked, by window base (R59) -/
  wperm : List (Nat × Nat) := []
  /-- what has been given to the outside, newest first (log entry 9) -/
  out : List Out := []
  /-- requests to the host that wait, oldest first; true: their data comes through the mesh (R26, R520) -/
  hostHeld : List (Bool × Out) := []
  /-- counter of the free values taken -/
  free : Nat := 0
  /-- where the free values of the occupancy histograms of the last complete Stitch begin (R299, R328); none before the first -/
  histBase : Option Nat := none
  /-- mesh cycles since the last Stitch (log entry 2) -/
  cycle : Nat := 0
deriving DecidableEq, Repr

/-- The whole machine. -/
structure State where
  pending : List Instr := []
  dev : Dev := {}
  fuses : FuseSt := {}
deriving DecidableEq, Repr

/-- The machine right after reset (DESIGN CHOICE, log entry 3). -/
def State.reset : State := {}

end Sys2Proof.Machine
end

