-- ==== Sys2Proof/Machine/Ops.lean ====
section
/-! DEFINITION. The named operations that every family uses: registers, latched faults and events, the safe state, the
change log, and the bytes of the memories. -/

namespace Sys2Proof.Machine

/-- A meaning that acts on the device alone. -/
def State.onDev (s : State) (f : Dev → Dev) : Host.Outcome State Fault Refusal := .next { s with dev := f s.dev }

/-! ### Registers -/

/-- Banked registers (a register that acts on a selected slot, lane, flow or context) lie this far up, a bank apart. -/
def bankStep : Nat := 2 ^ 28

def regKey (b : Blk) (o : Nat) : Nat := blkBase b + o

def bankKey (b : Blk) (o i : Nat) : Nat := regKey b o + bankStep * (i + 1)

/-- The default entry of a routing table, for the negative-first order −x, −y, +x, +y (R280, R281): ESC, the productive
directions as ADAPT, and REACH. -/
def rtDefault (x y tx ty : Nat) : Nat :=
  let esc := if tx < x then 1 else if ty < y then 3 else if x < tx then 0 else if y < ty then 2 else 4
  let adapt := b2n (decide (x < tx)) + 2 * b2n (decide (tx < x)) + 4 * b2n (decide (y < ty)) + 8 * b2n (decide (ty < y))
  esc + 16 * adapt + 256

/-- What a register key holds at reset: the RESET column of its table; a routing-table entry, the default route. -/
def regReset (key : Nat) : Word :=
  match blkAt (key % bankStep) with
  | none => 0
  | some b =>
    match regSpec b (regOff key) with
    | none => 0
    | some s =>
      match b with
      | .msh d r =>
        if regOff key = MSH_RT then
          let p := routerPos d r
          let t := if key < bankStep then 0 else (key / bankStep - 1) % 256
          BitVec.ofNat 32 (rtDefault p.1 p.2 (t % 16) (t / 16))
        else BitVec.ofNat 32 s.reset
      | _ => BitVec.ofNat 32 s.reset

def rdKey (d : Dev) (key : Nat) : Nat := (Sparse.get regReset d.regs key).toNat

def wrKey (key v : Nat) (d : Dev) : Dev :=
  { d with regs := Sparse.set regReset d.regs key (BitVec.ofNat 32 v) }

def rd (b : Blk) (o : Nat) (d : Dev) : Nat := rdKey d (regKey b o)
def wr (b : Blk) (o v : Nat) (d : Dev) : Dev := wrKey (regKey b o) v d
def rdB (b : Blk) (o i : Nat) (d : Dev) : Nat := rdKey d (bankKey b o i)
def wrB (b : Blk) (o i v : Nat) (d : Dev) : Dev := wrKey (bankKey b o i) v d

/-- Fields `[lo + len - 1 : lo]`. -/
def rdF (b : Blk) (o lo len : Nat) (d : Dev) : Nat := bits (rd b o d) lo len
def wrF (b : Blk) (o lo len v : Nat) (d : Dev) : Dev := wr b o (putBits (rd b o d) lo len v) d
def rdBit (b : Blk) (o i : Nat) (d : Dev) : Bool := bit (rd b o d) i
def wrBit (b : Blk) (o i : Nat) (v : Bool) (d : Dev) : Dev := wrF b o i 1 (b2n v) d

/-- A register pair of 64 bits: LO at `o`, HI at `o + 4`. -/
def rd64 (b : Blk) (o : Nat) (d : Dev) : Nat := rd b o d + rd b (o + 4) d * 2 ^ 32
def wr64 (b : Blk) (o v : Nat) (d : Dev) : Dev := wr b (o + 4) (v / 2 ^ 32) (wr b o v d)
def rdB64 (b : Blk) (o i : Nat) (d : Dev) : Nat := rdB b o i d + rdB b (o + 4) i d * 2 ^ 32
def wrB64 (b : Blk) (o i v : Nat) (d : Dev) : Dev := wrB b (o + 4) i (v / 2 ^ 32) (wrB b o i v d)

/-- Counters: of 32 bits and of 64 bits, both wrapping, and a saturating field. -/
def bump (b : Blk) (o n : Nat) (d : Dev) : Dev := wr b o (rd b o d + n) d
def bump64 (b : Blk) (o n : Nat) (d : Dev) : Dev := wr64 b o (rd64 b o d + n) d
def bumpB64 (b : Blk) (o i n : Nat) (d : Dev) : Dev := wrB64 b o i (rdB64 b o i d + n) d
def bumpSat (b : Blk) (o lo len : Nat) (d : Dev) : Dev :=
  wrF b o lo len (sat (2 ^ len - 1) (rdF b o lo len d + 1)) d

/-! ### Faults and events (R46, R49, R109) -/

def faultValid (b : Blk) (d : Dev) : Bool := rdBit b R_FAULT 31 d

/-- A fault latches: CODE keeps the first, COUNT counts them (R46). -/
def latch (b : Blk) (code : Nat) (d : Dev) : Dev :=
  if faultValid b d then wrF b R_FAULT 16 8 (sat 255 (rdF b R_FAULT 16 8 d + 1)) d
  else wr b R_FAULT (code % 65536 + 65536 + 2 ^ 31) d

/-- A fault with its recording registers, which are updated only while VALID is 0 (R109). -/
def latchWith (b : Blk) (code : Nat) (record : Dev → Dev) (d : Dev) : Dev :=
  latch b code (if faultValid b d then d else record d)

/-- An EVENT bit of a leaf block is set. -/
def setEvent (b : Blk) (i : Nat) (d : Dev) : Dev := wrBit b R_EVENT i true d

def cFrameOverrun : Nat := 0x0101
def cFlagWaitTimeout : Nat := 0x0102
def cAbsentUnit : Nat := 0x0103
def cScoreboardFull : Nat := 0x0104
def cBreakHit : Nat := 0x0105
def cIllegalWord : Nat := 0x0106
def cResidueMismatch : Nat := 0x0107
def cEccCorrected : Nat := 0x0201
def cEccUncorrected : Nat := 0x0202
def cAddressFault : Nat := 0x0204
def cWindowViolation : Nat := 0x0301
def cProtocolViolation : Nat := 0x0302
def cPeerLost : Nat := 0x0303
def cLinkDown : Nat := 0x0304
def cMulticastHold : Nat := 0x0305
def cStaleGather : Nat := 0x0401
def cNonfiniteStep : Nat := 0x0402
def cDigestMismatch : Nat := 0x0403
def cSagWarn : Nat := 0x0501
def cPowerShort : Nat := 0x0502
def cThermalWarn : Nat := 0x0503
def cPinStuck : Nat := 0x0504
def cMarginLow : Nat := 0x0505
def cPermDenied : Nat := 0x0601
def cCfgParity : Nat := 0x0602
def cAuthFail : Nat := 0x0603
def cLogSealFail : Nat := 0x0604
def cFitError : Nat := 0x0701
def cApplyMiss : Nat := 0x0702
def cBistFail : Nat := 0x0703
def cRepairExhausted : Nat := 0x0704

/-! ### Blocks: enabled, fenced, safe, in reset, present -/

def isSafe (b : Blk) (d : Dev) : Bool := d.safe.contains (blkBase b)

/-- A unit performs no operation: it is disabled, or in its safe state (R47, R55) (DEDUCED, log entry 15). -/
def idle (b : Blk) (d : Dev) : Bool := isSafe b d || !rdBit b R_CTRL 0 d

/-- A domain contains a block (R23). The RST block of a die records the die's own resets and is not among them. -/
def domHas (m : Dom) (b : Blk) : Bool :=
  match m with
  | .chip => true
  | .die k => blkDie b == some k && !decide (b = .rstd k)
  | .cluster k c => blkCluster b == some (k, c)
  | .core c => blkCore b == some c
  | .engine e => decide (e = b)
  | .context _ => false

def inReset (b : Blk) (d : Dev) : Bool := d.resets.any (domHas · b)

def fenced (b : Blk) (d : Dev) : Bool := rdBit b R_CTRL 1 d

/-- SLOTn of CLU_SLOT (R522). -/
def slotState (c : CoreRef) (d : Dev) : Nat := rdF (.clu c.die c.cl) CLU_SLOT (3 * c.slot) 3 d

/-- A fused slot, or a spare that has not been substituted: its window reads 0 and ignores writes (R53). -/
def slotAbsent (c : CoreRef) (d : Dev) : Bool := isMatrix c && (slotState c d == 1 || slotState c d == 4)

/-- A core that works: an active or substituted slot, or a vector or scalar core that is not failed (R522). -/
def coreAlive (c : CoreRef) (d : Dev) : Bool :=
  (!rdBit (.clu c.die c.cl) CLU_SLOT 31 d) &&
  (if isMatrix c then slotState c d == 0 || slotState c d == 2
   else !rdBit (.clu c.die c.cl) CLU_SLOT (if c.slot = 9 then 27 else if c.slot = 10 then 28 else 29) d)

/-- The rails are out of regulation, or TRAY_RST_n or the supply holds the chip in reset. -/
def chipHeld (d : Dev) : Bool := !d.mod_.rails || d.mod_.trayHeld || d.mod_.supplyHeld

/-! ### Requests to the host (R26, R506, R520) -/

/-- Die 0 is in reset: the management domain and the host port cannot reach the mesh. -/
def dieDown (d : Dev) : Bool := d.resets.contains (.die 0) || d.resets.contains .chip

def hostHolds (viaMesh : Bool) (d : Dev) : Bool := isSafe .pci d || (viaMesh && dieDown d)

/-- A request the device issues to the host; while it cannot issue it waits in order. -/
def toHost (viaMesh : Bool) (o : Out) (d : Dev) : Dev :=
  if hostHolds viaMesh d then { d with hostHeld := d.hostHeld ++ [(viaMesh, o)] } else { d with out := o :: d.out }

/-- Held requests issue in their original order. -/
def hostFlush (d : Dev) : Dev :=
  let go := d.hostHeld.filter fun h => !hostHolds h.1 d
  { d with hostHeld := d.hostHeld.filter (fun h => hostHolds h.1 d), out := (go.map (·.2)).reverse ++ d.out }

/-! ### Cores -/

def coreInit (_ : Nat) : CoreSt := {}

def getCore (c : CoreRef) (d : Dev) : CoreSt := Sparse.get coreInit d.cores (coreKey c)

def setCore (c : CoreRef) (x : CoreSt) (d : Dev) : Dev :=
  { d with cores := Sparse.set coreInit d.cores (coreKey c) x }

def modCore (c : CoreRef) (f : CoreSt → CoreSt) (d : Dev) : Dev := setCore c (f (getCore c d)) d

/-- Element `i` of a list changed. -/
def modNth {α : Type} (f : α → α) : Nat → List α → List α
  | _, [] => []
  | 0, a :: l => f a :: l
  | n + 1, a :: l => a :: modNth f n l

def getStream (c : CoreRef) (n : Nat) (d : Dev) : StreamSt := ((getCore c d).streams[n]?).getD {}

def modStream (c : CoreRef) (n : Nat) (f : StreamSt → StreamSt) (d : Dev) : Dev :=
  modCore c (fun x => { x with streams := modNth f n x.streams }) d

/-- A register of stream set `n`. -/
def sOff (n o : Nat) : Nat := streamOff n + o

/-- A stream stops (R190): STOPPED and STOP_CAUSE. -/
def stopStream (c : CoreRef) (n cause : Nat) (d : Dev) : Dev :=
  wrF (.seq c) (sOff n S_CTL) 5 3 cause (wrBit (.seq c) (sOff n S_CTL) 2 true d)

def stopped (c : CoreRef) (n : Nat) (d : Dev) : Bool := rdBit (.seq c) (sOff n S_CTL) 2 d
def stopCause (c : CoreRef) (n : Nat) (d : Dev) : Nat := rdF (.seq c) (sOff n S_CTL) 5 3 d
def streamOn (c : CoreRef) (n : Nat) (d : Dev) : Bool := rdBit (.seq c) (sOff n S_CTL) 0 d

/-- The stop is lifted. -/
def unstopStream (c : CoreRef) (n : Nat) (d : Dev) : Dev :=
  wrF (.seq c) (sOff n S_CTL) 5 3 0 (wrBit (.seq c) (sOff n S_CTL) 2 false d)

/-! ### Configuration parity and the safe state (R54, R55, R191) -/

/-- A block enters its safe state: ENABLE 0, FENCE 1; the running streams of a sequencer stop with cause 6. -/
def enterSafe (b : Blk) (d : Dev) : Dev :=
  let d := { wrF b R_CTRL 0 2 2 d with safe := Sparse.mark d.safe (blkBase b) }
  match b with
  | .seq c => (List.range (nStreams c)).foldl
      (fun d n => if streamOn c n d && !stopped c n d then stopStream c n 6 d else d) d
  | _ => d

/-- A parity mismatch of the register at `o` (R55). -/
def parityFail (b : Blk) (o : Nat) (d : Dev) : Dev :=
  let d := if rdBit b R_PARITY 0 d then bumpSat b R_PARITY 16 8 d
           else wr b R_PARITY (1 + (o / 4) * 4 + 65536) d
  enterSafe b (latch b cCfgParity d)

/-- The safe state ends at the first CTRL write that leaves ENABLE 1 with nothing latched (R55); the streams that it
stopped resume (R191) (DEDUCED, log entry 16). -/
def leaveSafe (b : Blk) (d : Dev) : Dev :=
  if isSafe b d && rdBit b R_CTRL 0 d && !rdBit b R_PARITY 0 d && !faultValid b d then
    let d := { d with safe := Sparse.unmark d.safe (blkBase b) }
    match b with
    | .seq c => (List.range (nStreams c)).foldl
        (fun d n => if stopped c n d && stopCause c n d == 6 then unstopStream c n d else d) d
    | .pci => hostFlush d
    | _ => d
  else d

/-! ### The change log (R486 to R492) -/

/-- The 32 bytes of an entry (R487). -/
def entryBytes (e : LogEntry) : List Byte :=
  toBytes 8 (e.cycles % 2 ^ 24 + (e.stitch % 2 ^ 40) * 2 ^ 24) ++
  toBytes 4 (e.id % 2 ^ 20 + e.cls * 2 ^ 28) ++ toBytes 4 e.addr ++ toBytes 4 e.old ++ toBytes 4 e.new ++
  toBytes 4 e.seq ++
  toBytes 4 (b2n e.denied + 2 * b2n e.inReset + 4 * b2n e.armed + 8 * b2n e.boot + 16 * b2n e.alias_ + e.code * 65536)

def stitchNum (d : Dev) : Nat := rd64 .tck TCK_NUM_LO d

/-- The last `n` entries held, oldest first. -/
def lastEntries (l : LogSt) (n : Nat) : List LogEntry := (l.ring.take n).reverse

/-- H of the block before the one in progress: the newest hash, or H(-1) of the chain (R489). -/
def prevHash (l : LogSt) : List Byte :=
  match l.hashes with
  | h :: _ => h
  | [] => l.h0

/-- The running hash R(s) through the newest entry `s` (R489). -/
def runHash (l : LogSt) (s : Nat) : List Byte :=
  Keccak.shake256 (toBytes 8 (s / 256) ++ prevHash l ++ (lastEntries l (s % 256 + 1)).flatMap entryBytes) 32

/-- The device ring's size in entries, and how many block hashes the link table keeps (R489, R492). -/
def ringSize : Nat := 262144
def linkSize : Nat := 1024

/-- The number of entries not yet copied to the host (R491). -/
def undrained (d : Dev) : Nat := rd64 .log LOG_SEQ_LO d - rd64 .log LOG_HWR_LO d

/-- HWR moves on to `n`; EVENT.WATERMARK is set when HWR − HACK reaches LOG_HWM (R491). -/
def moveHwr (n : Nat) (d : Dev) : Dev :=
  let d := wr64 .log LOG_HWR_LO n d
  if n - d.log.hack = rd .log LOG_HWM d then setEvent .log 9 d else d

/-- A new entry with everything undrained overwrites the oldest (R492). -/
def logOverflow (d : Dev) : Dev :=
  if ringSize < undrained d then setEvent .log 8 (bump .log LOG_LOST 1 (moveHwr (rd64 .log LOG_SEQ_LO d - ringSize) d)) else d

/-- Entry `s` joins the ring; the last of a block completes its hash (R489). -/
def joinLog (s : Nat) (e : LogEntry) (l : LogSt) : LogSt :=
  let l := { l with ring := ({ e with seq := s % 2 ^ 32 } :: l.ring).take ringSize }
  if s % 256 = 255 then { l with hashes := (runHash l s :: l.hashes).take linkSize } else l

/-- One entry joins the chain (R488, R489). Time and sequence number are the device's own. -/
def appendLog (e : LogEntry) (d : Dev) : Dev :=
  let s := rd64 .log LOG_SEQ_LO d
  let l := joinLog s { e with stitch := stitchNum d, cycles := d.cycle } d.log
  logOverflow (wr64 .log LOG_SEQ_LO (s + 1) { d with log := l })

end Sys2Proof.Machine
end

