-- ==== Sys2Proof/Machine/Operands.lean ====
section
/-! DEFINITION. The operand forms: free values, the bytes of the memories by physical key, which controller serves a byte,
and global addresses (R19 to R22, R220 to R230). -/

namespace Sys2Proof.Machine

/-! ### Free values -/

/-- The next free value, and the device with its counter advanced (log entry 6). -/
def freeNow (d : Dev) : Nat := (Config.freeValue d.free).toNat
def freeNext (d : Dev) : Dev := { d with free := d.free + 1 }
/-- The `i`-th free value from the next one on, and the counter advanced past `n` of them. -/
def freeAt (i : Nat) (d : Dev) : Nat := (Config.freeValue (d.free + i)).toNat
def freeSkip (n : Nat) (d : Dev) : Dev := { d with free := d.free + n }

/-! ### Physical keys: near store, far memory, local memories, flag store -/

def keyNear (o : Nat) : Nat := o
def keyFar (o : Nat) : Nat := 2 ^ 40 + o
def keyLoc (c : CoreRef) (b : Nat) : Nat := 2 ^ 42 + coreKey c * 2 ^ 23 + b
def keyFlag (o : Nat) : Nat := 2 ^ 44 + o

/-- The space code of a physical key (R19). -/
def keySpace (k : Nat) : Nat :=
  if k < 2 ^ 40 then 0 else if k < 2 ^ 42 then 1 else if k < 2 ^ 44 then 2 else 4

/-- The core whose local memory a key lies in. -/
def keyCore (k : Nat) : CoreRef := coreOfKey ((k - 2 ^ 42) / 2 ^ 23)

/-- What a byte that nothing has written reads (DESIGN CHOICE, log entry 5). -/
def memInit (_ : Nat) : Byte := 0

def memRd (d : Dev) (k : Nat) : Byte := Sparse.get memInit d.mem k
def memWr (k : Nat) (v : Byte) (d : Dev) : Dev := { d with mem := Sparse.set memInit d.mem k v }

/-- The memories are in canonical form: keys strictly rising, no entry equal to what an unlisted key reads as. -/
def Memory.wf (m : List Host.Cell) : Bool := Sparse.wf memInit m
/-- The same of the register file. -/
def Registers.wf (r : List (Nat × Word)) : Bool := Sparse.wf regReset r
def canonical (d : Dev) : Bool := Registers.wf d.regs && Memory.wf d.mem

/-- The size of a core's local memory (R220). -/
def lmSize (c : CoreRef) : Nat := if isMatrix c then 0x800000 else if isVector c then 0x400000 else 0x80000

/-- The size of the near store (R223). -/
def nearSize : Nat := 0x600000000

/-- The size of flag space (R226). -/
def flagSize : Nat := 0x800000

/-- The channels in service and the populated extent of far memory (R230). -/
def farChans (d : Dev) : Nat := d.farMap.length
def farSize (d : Dev) : Nat := farChans d * 3968 * 4194304

/-- The channel of a far-memory offset (R230). -/
def farChan (o : Nat) (d : Dev) : Nat := (d.farMap[o / 128 / 31 % farChans d]?).getD 0

/-- The controller and channel of a channel number g = 24 die + 4 i + j (R227). -/
def chanBlk (g : Nat) : Blk := .fmc (g / 24) (g / 4 % 6)
def chanReg (g : Nat) : Nat := FMC_CHAN0 + 4 * (g % 4)
def chanState (g : Nat) (d : Dev) : Nat := rdF (chanBlk g) (chanReg g) 0 3 d

/-- The block that serves a physical key (R223, R226, R227). -/
def keyBlk (k : Nat) (d : Dev) : Blk :=
  match keySpace k with
  | 0 => .nsc (k / 0x180000000) (bits k 8 2)
  | 1 => chanBlk (farChan (k - 2 ^ 40) d)
  | 2 => .lmm (keyCore k)
  | _ => let x := (k - 2 ^ 44) / 0x20000; .nsc (x % 4) (x / 4 % 4)

/-- The channel of a key is failed: its data read poisoned and writes to it are dropped (R231). -/
def keyFailed (k : Nat) (d : Dev) : Bool :=
  keySpace k == 1 && chanState (farChan (k - 2 ^ 40) d) d == 3

/-- The granule of a key: 32 bytes in the near and flag stores, 128 in far memory, 8 in local memory (R233). -/
def granSize (k : Nat) : Nat := match keySpace k with | 1 => 128 | 2 => 8 | _ => 32
def granOf (k : Nat) : Nat := k - k % granSize k

def isPoison (g : Nat) (d : Dev) : Bool := d.poison.contains g
def setPoison (g : Nat) (d : Dev) : Dev := { d with poison := Sparse.mark d.poison g }
def clearPoison (g : Nat) (d : Dev) : Dev := { d with poison := Sparse.unmark d.poison g }

/-! ### Bindings and global addresses (R19 to R22, R221) -/

def noBind (_ : Nat) : Nat := 0
def bindKey (ctx ty n : Nat) : Nat := ctx * 1024 + ty * 256 + n

/-- The core bound to a logical number in a context (R256). -/
def boundCore (ctx ty n : Nat) (d : Dev) : Option CoreRef :=
  match Sparse.get noBind d.binds (bindKey ctx ty n) with
  | 0 => none
  | k + 1 => some (coreOfKey k)

/-- The logical numbers of a core: those under which its own context binds it. -/
def logicalOf (c : CoreRef) (d : Dev) : Option Nat :=
  let ctx := rdF (.seq c) SEQ_CTX 0 6 d
  if rdBit (.seq c) SEQ_CTX 31 d then
    (d.binds.find? fun p => p.2 == coreKey c + 1 && p.1 / 1024 == ctx).map fun p => p.1 % 256
  else none

/-- The type code of a core in space 010: 0 matrix, 1 vector, 2 scalar. -/
def coreTy (c : CoreRef) : Nat := if isMatrix c then 0 else if isVector c then 1 else 2

def gDev (a : Nat) : Nat := bits a 49 15
def gSpace (a : Nat) : Nat := bits a 46 3
def gOff (a : Nat) : Nat := bits a 0 46
def gAddr (dv sp o : Nat) : Nat := dv * 2 ^ 49 + sp * 2 ^ 46 + o

def ownDev (d : Dev) : Nat := rdF .glb GLB_DEVNUM 0 15 d
def devValid (d : Dev) : Bool := rdBit .glb GLB_DEVNUM 31 d

/-- The length of torus axis `n` (R33), and the coordinate of a device on it (R22). -/
def axisLen (n : Nat) (d : Dev) : Nat := 2 ^ rdF .glb GLB_TORUS (2 * n) 2 d
def coordOf (dv n : Nat) : Nat := bits dv (3 * n) 3

/-- The device number lies within the torus shape (R20, R22). -/
def inTorus (dv : Nat) (d : Dev) : Bool :=
  decide (dv < 32768) && (List.range 5).all fun n => decide (coordOf dv n < axisLen n d)

def gradeS (d : Dev) : Bool := rdF .glb GLB_GRADE 0 2 d == 1

/-- Logical cores of each type that the grade has (R3, R11). -/
def gradeCores (ty : Nat) (d : Dev) : Nat :=
  match ty with
  | 0 => if gradeS d then 192 else 256
  | 1 => 64
  | _ => 32

/-- The size of the local memory of a core type (R220). -/
def tySize (ty : Nat) : Nat := match ty with | 0 => 0x800000 | 1 => 0x400000 | _ => 0x80000

/-- The OFFSET of an address in space 010 is well formed (R221). -/
def locOk (o : Nat) : Bool := decide (o < 2 ^ 33) && bits o 31 2 != 3 && decide (bits o 0 23 < tySize (bits o 31 2))

/-- The offset lies in the extent of its space (R20). Far memory of another device is taken at its largest extent. -/
def offOk (own : Bool) (sp o : Nat) (d : Dev) : Bool :=
  match sp with
  | 0 => decide (o < nearSize)
  | 1 => decide (o < if own then farSize d else 0x17400000000)
  | 2 => locOk o
  | 3 => decide (o < 0x10000000)
  | 4 => decide (o < flagSize)
  | _ => false

/-- An address is accepted at its source (R20, R32). -/
def addrOk (a : Nat) (d : Dev) : Bool :=
  devValid d && inTorus (gDev a) d && offOk (gDev a == ownDev d) (gSpace a) (gOff a) d

/-- Every byte of a range is accepted, and the range stays within one device and space. -/
def rangeOk (a n : Nat) (d : Dev) : Bool :=
  addrOk a d && addrOk (a + n - 1) d && a / 2 ^ 46 == (a + n - 1) / 2 ^ 46 &&
    (gSpace a != 2 || a / 2 ^ 23 == (a + n - 1) / 2 ^ 23)

/-- What an address of this device names: a physical key, a register, or a core that is not there (R187). -/
inductive Spot where
  | mem (key : Nat)
  | reg (off : Nat)
  | absent
deriving DecidableEq, Repr

/-- The place of an address of this device, local cores taken by the binding of context `ctx` (R221, R289). -/
def spotOf (ctx a : Nat) (d : Dev) : Spot :=
  let o := gOff a
  match gSpace a with
  | 0 => .mem (keyNear o)
  | 1 => .mem (keyFar o)
  | 2 => match boundCore ctx (bits o 31 2) (bits o 23 8) d with
    | some c => if coreAlive c d then .mem (keyLoc c (bits o 0 23)) else .absent
    | none => .absent
  | 3 => .reg o
  | _ => .mem (keyFlag o)

/-- The global address of a physical key. A core that no context binds has no logical number: the field is free. -/
def keyAddr (k : Nat) (d : Dev) : Nat :=
  match keySpace k with
  | 0 => gAddr (ownDev d) 0 k
  | 1 => gAddr (ownDev d) 1 (k - 2 ^ 40)
  | 2 =>
    let c := keyCore k
    let n := match logicalOf c d with | some n => n | none => freeNow d % 256
    gAddr (ownDev d) 2 (coreTy c * 2 ^ 31 + n * 2 ^ 23 + (k - 2 ^ 42) % 2 ^ 23)
  | _ => gAddr (ownDev d) 4 (k - 2 ^ 44)

end Sys2Proof.Machine
end

