-- ==== Sys2Proof/Machine/Memory.lean ====
section
/-! DEFINITION. The memories (chapter "Memories and stream transfers"): error correction, poison, and the reads and writes
every unit makes. -/

namespace Sys2Proof.Machine

/-! ### Error correction (R222, R225, R229, R232, R233) -/

def flawInit (_ : Nat) : Nat := 0
def flawAt (g : Nat) (d : Dev) : Nat := Sparse.get flawInit d.flaws g
def setFlaw (g n : Nat) (d : Dev) : Dev := { d with flaws := Sparse.set flawInit d.flaws g n }

/-- Errors that strike stored granules. -/
def addFlaws (fs : List Flaw) (d : Dev) : Dev :=
  fs.foldl (fun d f => setFlaw (granOf f.key) (flawAt (granOf f.key) d + f.n) d) d

/-- How many errors a block corrects in a granule, and how many it detects at least. -/
def eccLimits (b : Blk) (d : Dev) : Nat × Nat :=
  match b with
  | .nsc _ _ => (2, 3)
  | .fmc _ _ => if rdBit b FMC_CFG 0 d then (1, 3) else (2, 2)
  | _ => (1, 2)

/-- ECC_WIN counts; at THRESH the block latches ECC_CORRECTED, once per window (R232). -/
def eccCount (b : Blk) (d : Dev) : Dev :=
  let d := bumpSat b ECC_WIN 0 16 (bump64 b ECC_CE_LO 1 d)
  if decide (rdF b ECC_CFG 0 16 d ≤ rdF b ECC_WIN 0 16 d) && !d.eccOnce.contains (blkBase b) then
    latch b cEccCorrected { d with eccOnce := Sparse.mark d.eccOnce (blkBase b) }
  else d

/-- A corrected error in granule `g` (R232): counted, its address recorded, the write-back due. -/
def eccCorrect (b : Blk) (g : Nat) (d : Dev) : Dev :=
  let d := wr64 b ECC_CADDR_LO (keyAddr g d) (eccCount b d)
  { d with wback := Sparse.mark d.wback g }

/-- How many failing positions a granule has: bits, or bytes in far memory (R246). -/
def synRange (g : Nat) : Nat := match keySpace g with | 1 => 128 | 2 => 64 | _ => 256

/-- An uncorrected error in granule `g` (R233), found by a read (kind 1) or by scrub (kind 2). The failing position that
ECC_SYND reports depends on the error, which the model does not hold: it is free. -/
def eccFail (b : Blk) (kind g : Nat) (d : Dev) : Dev :=
  let d := bump b ECC_UE 1 d
  let ch := if keySpace g = 1 then farChan (g - 2 ^ 40) d % 4 else 0
  let d := latchWith b cEccUncorrected (fun d =>
    wr b ECC_SYND (freeAt 1 d % synRange g + kind * 256 + ch * 4096) (wr64 b ECC_ADDR_LO (keyAddr g d) d)) d
  setPoison g (setFlaw g 0 (freeSkip 2 d))

/-- The bytes of a granule become free values (a miscorrected or unreported error, R233). -/
def freeGran (g : Nat) (d : Dev) : Dev :=
  (List.range (granSize g)).foldl (fun d i => freeNext (memWr (g + i) (BitVec.ofNat 8 (freeNow d)) d)) d

/-- The check of granule `g` as it is read: nothing, a correction, an uncorrected error, or, beyond what the code
guarantees, one of the three outcomes of R233, which one being free (DESIGN CHOICE, log entry 19). -/
def eccCheck (kind g : Nat) (d : Dev) : Dev :=
  let n := flawAt g d
  let b := keyBlk g d
  let (c, t) := eccLimits b d
  if n = 0 || isPoison g d then d
  else if n ≤ c then eccCorrect b g d
  else if n ≤ t then eccFail b kind g d
  else
    let r := freeNow d % 3
    let d := freeNext d
    if r = 0 then eccFail b kind g d
    else
      let d := setFlaw g 0 (freeGran g d)
      if r = 1 then wr64 b ECC_CADDR_LO (keyAddr g d) (eccCount b d) else d

/-! ### Reads and writes -/

/-- The granules that a range touches. -/
def gransOf (k n : Nat) : List Nat :=
  if n = 0 then [] else
  (List.range ((granOf (k + n - 1) - granOf k) / granSize k + 1)).map fun i => granOf k + granSize k * i

/-- How many bytes of a range lie in granule `g`. -/
def inGran (k n g : Nat) : Nat := min (k + n) (g + granSize g) - max k g

/-- A far-memory access meets the check cache: hit or miss is the cache's matter, and free (R229, R248) (DESIGN CHOICE, log entry 20). -/
def checkCache (b : Blk) (d : Dev) : Dev :=
  let hit := freeNow d % 2 == 0
  bump64 b (if hit then FMC_CCHIT_LO else FMC_CCMISS_LO) 1 (freeNext d)

/-- The counters of a controller for `n` bytes read or written. -/
def countAccess (wrote : Bool) (k n : Nat) (d : Dev) : Dev :=
  let b := keyBlk k d
  match b with
  | .nsc _ _ => bump64 b (if wrote then NSC_WR_LO else NSC_RD_LO) n d
  | .fmc _ _ => checkCache b (bump64 b (if wrote then FMC_WR_LO else FMC_RD_LO) n d)
  | _ => d

/-- What reading one granule does. -/
def touchRead (k n g : Nat) (d : Dev) : Dev :=
  if keyFailed g d then d else eccCheck 1 g (countAccess false g (inGran k n g) d)

/-- The effects of reading `n` bytes at `k`; the bytes themselves are `memBytes` of the result. -/
def readEffects (k n : Nat) (d : Dev) : Dev := (gransOf k n).foldl (fun d g => touchRead k n g d) d

def memBytes (k n : Nat) (d : Dev) : List Byte := (List.range n).map fun i => memRd d (k + i)

/-- Whether each byte of a range is poisoned (R233, R231). -/
def poisonOf (k : Nat) (d : Dev) : Bool := isPoison (granOf k) d || keyFailed k d
def poisonBytes (k n : Nat) (d : Dev) : List Bool := (List.range n).map fun i => poisonOf (k + i) d
def anyPoison (k n : Nat) (d : Dev) : Bool := (gransOf k n).any fun g => poisonOf g d
/-- The first poisoned byte of a range. -/
def poisonKey (k n : Nat) (d : Dev) : Option Nat := ((gransOf k n).find? fun g => poisonOf g d).map fun g => max g k

/-- An armed injection corrupts the granule that the block's next write stores (R246). A BITS of 0, whose number of
errors the spec does not list, injects a free number. -/
def injectEcc (g : Nat) (d : Dev) : Dev :=
  let b := keyBlk g d
  if rdBit b ECC_INJ 3 d then
    let n := rdF b ECC_INJ 1 2 d
    let d := wrBit b ECC_INJ 3 false d
    if n = 0 then setFlaw g (freeNow d % 4) (freeNext d) else setFlaw g n d
  else d

/-- What storing into one granule does to its check bits and poison: a whole clean granule is new; a part of one is read,
corrected, merged and written; a poisoned byte poisons it (R222, R225, R229, R233, R234). -/
def touchWrite (k : Nat) (ps : List Bool) (g : Nat) (d : Dev) : Dev :=
  let n := ps.length
  let whole := inGran k n g == granSize g
  let bad := ((ps.drop (g - k)).take (inGran k n g)).any id
  let d := if whole then d else eccCheck 1 g d
  let d := setFlaw g 0 { d with wback := Sparse.unmark d.wback g }
  let d := if bad then setPoison g d else if whole then clearPoison g d else d
  injectEcc g (countAccess true g (inGran k n g) d)

/-- Bytes stored one by one. -/
def storeBytes : Nat → List Byte → Dev → Dev
  | _, [], d => d
  | k, b :: bs, d => storeBytes (k + 1) bs (if keyFailed k d then d else memWr k b d)

/-- `bs` written at `k`, each byte poisoned or not. -/
def memWrite (k : Nat) (bs : List Byte) (ps : List Bool) (d : Dev) : Dev :=
  let d := (gransOf k bs.length).foldl
    (fun d g => if keyFailed g d then d else touchWrite k (ps.take bs.length) g d) d
  storeBytes k bs d

/-- Clean bytes written at `k`. -/
def memPut (k : Nat) (bs : List Byte) (d : Dev) : Dev := memWrite k bs (List.replicate bs.length false) d

/-- A little-endian number of `n` bytes at `k`. -/
def memNat (k n : Nat) (d : Dev) : Nat := ofBytes (memBytes k n d)
def memPutNat (k n v : Nat) (d : Dev) : Dev := memPut k (toBytes n v) d

/-- A core's own local memory. -/
def lmNat (c : CoreRef) (b n : Nat) (d : Dev) : Nat := memNat (keyLoc c b) n d

/-- Poisoned data used by a unit of a core: its LMM latches ECC_UNCORRECTED with the address, wherever the poison was
made (R236). -/
def lmmPoisonUse (c : CoreRef) (addr : Nat) (d : Dev) : Dev :=
  latchWith (.lmm c) cEccUncorrected (fun d =>
    wr (.lmm c) ECC_SYND (freeNow d % 64 + 256) (wr64 (.lmm c) ECC_ADDR_LO addr (freeNext d))) d

end Sys2Proof.Machine
end

