-- ==== Sys2Proof/Machine/Flags.lean ====
section
/-! DEFINITION. Flags: the flag store's updates and notices (R176, R178, R226, R235). -/

namespace Sys2Proof.Machine

/-! ### Flags (R176, R226) -/

def flagKey (ctx f : Nat) : Nat := keyFlag (ctx * 0x20000 + 8 * f)
def flagVal (ctx f : Nat) (d : Dev) : Nat := memNat (flagKey ctx f) 8 d
def flagBlk (ctx : Nat) : Blk := .nsc (ctx % 4) (ctx / 4 % 4)
def flagPoison (ctx f : Nat) (d : Dev) : Bool := poisonOf (flagKey ctx f) d

/-- The cores with a stream that waits on a flag of a context are sent a notice (R178, R226). -/
def flagNotices (ctx f : Nat) (d : Dev) : Dev :=
  { d with cores := d.cores.map fun p =>
      let c := coreOfKey p.1
      if rdF (.seq c) SEQ_CTX 0 6 d == ctx &&
          p.2.streams.any (fun s => match s.wait with | some w => w.flag == f | none => false)
      then (p.1, { p.2 with notices := if p.2.notices.contains f then p.2.notices else p.2.notices ++ [f] })
      else p }

/-- A flag takes a new value (R226). -/
def flagSet (ctx f v : Nat) (d : Dev) : Dev :=
  flagNotices ctx f (bump64 (flagBlk ctx) NSC_FLAG_LO 1 (memPutNat (flagKey ctx f) 8 v d))

/-- The controller of a flag takes updates: neither in its safe state nor fenced nor in reset (R250, R297). -/
def flagServed (ctx : Nat) (d : Dev) : Bool :=
  let b := flagBlk ctx
  !isSafe b d && !fenced b d && !inReset b d

/-- A flag advances, modulo 2⁶⁴; a poisoned flag, or one whose controller refuses the update, is left as it is (R226, R235, R250). -/
def flagAdd (ctx f n : Nat) (d : Dev) : Dev :=
  if !flagServed ctx d then d
  else
    let d := readEffects (flagKey ctx f) 8 d
    if flagPoison ctx f d then d else flagSet ctx f ((flagVal ctx f d + n) % 2 ^ 64) d

/-- A framed context's stitch flag (R200). -/
def stitchFlag : Nat := 16383
def framed (ctx : Nat) (d : Dev) : Bool := bit (rd64 .tck TCK_FRAME_EN_LO d) ctx

/-- A unit's update of a flag takes effect (R200, R235, R250). -/
def flagOpen (ctx f : Nat) (d : Dev) : Bool := flagServed ctx d && !flagPoison ctx f d && !(f == stitchFlag && framed ctx d)

/-- A unit of the device advances a flag: the stitch flag of a framed context refuses it and stays as it is (R200). -/
def unitFlag (ctx f n : Nat) (d : Dev) : Dev := if f = stitchFlag && framed ctx d then d else flagAdd ctx f n d

end Sys2Proof.Machine
end

