-- ==== Sys2Proof/Machine/Jobs.lean ====
section
/-! DEFINITION. Started slots: unit queues, the scoreboard, completion (R154, R162, R172 to R175, R186), and the refusals
and faults that a sequencer records (R185, R187, R189). -/

namespace Sys2Proof.Machine

/-- The unit that a slot is queued to: 0 array, 1 vector unit or lanes, 2 tack unit, 3 and 4 the transposing buffers, 5 and
6 the stream engines, 7 the sequencer's own loads and stores. -/
def unitOf : Work → Nat
  | .product _ | .drain _ | .load _ => 0
  | .vx _ _ _ _ _ _ _ => 1
  | .tackPut _ _ _ _ _ _ | .tackGet _ _ _ _ _ => 2
  | .transpose b _ _ _ _ _ _ _ _ => 3 + b
  | .stream e _ _ => 5 + e
  | .ld _ _ | .st _ _ => 7

/-- The first slot in a unit's queue (R154: slots of one unit execute in queue order). -/
def headJob (u : Nat) (x : CoreSt) : Option Job :=
  x.jobs.find? fun j => unitOf j.work == u && decide (j.phase = .queued)

def queueLen (u : Nat) (x : CoreSt) : Nat :=
  (x.jobs.filter fun j => unitOf j.work == u && decide (j.phase = .queued)).length

/-- A region, rounded outward to 256 bytes. -/
def mkRegion (lo len : Nat) (write : Bool) : List Region :=
  if len = 0 then [] else [⟨lo / 256 * 256, ceilDiv (lo + len) 256 * 256, write⟩]

/-- Two regions conflict (R173). -/
def conflict (a b : Region) : Bool :=
  decide (a.lo < b.hi) && decide (b.lo < a.hi) && (a.write || b.write)

/-- No region of an earlier slot that conflicts with the slot's own remains registered (R173). -/
def depsClear (j : Job) (x : CoreSt) : Bool :=
  x.jobs.all fun e => !decide (e.id < j.id) || e.regions.all fun r => j.regions.all fun q => !conflict r q

def getJob (id : Nat) (x : CoreSt) : Option Job := x.jobs.find? fun j => j.id == id

def modJob (id : Nat) (f : Job → Job) (x : CoreSt) : CoreSt :=
  { x with jobs := x.jobs.map fun j => if j.id = id then f j else j }

/-- The slot begins to execute. -/
def startJob (c : CoreRef) (id : Nat) (d : Dev) : Dev :=
  modCore c (modJob id fun j => { j with phase := .running }) d

/-- The slot's last access has ended; its entries are freed by SLOT_COMPLETE. -/
def finishJob (c : CoreRef) (id : Nat) (d : Dev) : Dev :=
  modCore c (modJob id fun j => { j with phase := .done }) d

/-- The DONE updates of the slot's word are withheld (R243, R187). -/
def withholdWord (id : Nat) (x : CoreSt) : CoreSt :=
  match getJob id x with
  | some j => { x with upds := x.upds.map fun u => if u.word = j.word && u.done then { u with withheld := true } else u }
  | none => x

/-- The slot's last read has finished: the entries of its reads are free (R172). -/
def freeReads (id : Nat) (x : CoreSt) : CoreSt := modJob id (fun j => { j with regions := j.regions.filter (·.write) }) x

/-- The read regions that a job still has registered conflict with `rs` (R173). -/
def readsConflict (j : Job) (rs : List Region) : Bool := j.regions.any fun r => !r.write && rs.any (conflict r)

/-- The slot ends without its work: no flag advances (R243, R187). -/
def failJob (c : CoreRef) (id : Nat) (d : Dev) : Dev :=
  finishJob c id (modCore c (withholdWord id) d)

/-- The context a core is bound to. -/
def coreCtx (c : CoreRef) (d : Dev) : Nat := rdF (.seq c) SEQ_CTX 0 6 d
def coreBound (c : CoreRef) (d : Dev) : Bool := rdBit (.seq c) SEQ_CTX 31 d

/-- A completion flag of a core's context advances by 1. -/
def advFlag (c : CoreRef) (f : Nat) (d : Dev) : Dev := unitFlag (coreCtx c d) f 1 d

/-- No later slot of the word that is still waiting starts, its plain update among them, and its DONE updates are withheld (R186). -/
def dropLater (c : CoreRef) (j : Job) (d : Dev) : Dev :=
  modCore c (fun x => { withholdWord j.id x with
    jobs := (withholdWord j.id x).jobs.filter fun k =>
      !(k.word == j.word && decide (j.slot < k.slot) && decide (k.phase = .queued))
    upds := (withholdWord j.id x).upds.filter fun u => !(u.word == j.word && !u.done) }) d

/-- What an address fault in a started slot does to its stream (R186): it stops before its next word. -/
def slotStop (c : CoreRef) (id : Nat) (d : Dev) : Dev :=
  match getJob id (getCore c d) with
  | some j => dropLater c j (stopStream c j.stream 4 d)
  | none => d

/-- The same, latched by the sequencer (R186, R523). -/
def slotFault (c : CoreRef) (id : Nat) (d : Dev) : Dev := slotStop c id (latch (.seq c) cAddressFault d)

/-- ILLEGAL_WORD (R185): the stream stops at the word; SEQ_ILL takes cause, stream and slot. -/
def illegalWord (c : CoreRef) (st cause slot : Nat) (d : Dev) : Dev :=
  stopStream c st 1 (latchWith (.seq c) cIllegalWord
    (wr (.seq c) SEQ_ILL (cause + st * 256 + slot * 4096)) d)

/-- ABSENT_UNIT at the issuing core (R187): SEQ_ABS takes stream and slot, and the change log records the attempt. The entry
is the issuing sequencer's own (class 8), at the register SEQ_ABS. -/
def absentUnit (c : CoreRef) (st slot addr : Nat) (d : Dev) : Dev :=
  let old := rd (.seq c) SEQ_ABS d
  let d := latchWith (.seq c) cAbsentUnit
    (fun d => wr64 (.seq c) SEQ_ABS_ADDR_LO addr (wr (.seq c) SEQ_ABS (st + slot * 16) d)) d
  appendLog { cls := 8, id := blkInstance (.seq c), addr := regKey (.seq c) SEQ_ABS, old := old,
              new := rd (.seq c) SEQ_ABS d } d

/-- Entries of the scoreboard in use (R172). -/
def sbUsed (x : CoreSt) : Nat := (x.jobs.map fun j => j.regions.length).sum

/-! ### Lane generators (R142 to R144, R149) -/

def nLanes (c : CoreRef) : Nat := if isMatrix c then 256 else 1024

def laneKey (x : CoreSt) (l : Nat) : Nat :=
  match x.seed with
  | some s => (s + l * 0xD1B54A32D192ED03) % 2 ^ 64
  | none => 0

def ctrInit (_ : Nat) : Nat := 0
def laneCtr (x : CoreSt) (l : Nat) : Nat := (x.ctrAll + Sparse.get ctrInit x.ctr l) % 2 ^ 64

/-- The generator's output for a key and a counter (R142). -/
def rngOut (key c : Nat) : Nat :=
  let m := 2 ^ 64
  let z := (key + c * 0x9E3779B97F4A7C15) % m
  let z := ((z ^^^ (z >>> 30)) * 0xBF58476D1CE4E5B9) % m
  let z := ((z ^^^ (z >>> 27)) * 0x94D049BB133111EB) % m
  z ^^^ (z >>> 31)

/-- The draw of lane `l`, `k` draws from now. In free-running mode the counter stands `k` core cycles on (R143). -/
def draw (x : CoreSt) (l k : Nat) : Nat := rngOut (laneKey x l) ((laneCtr x l + k) % 2 ^ 64)

/-- The lane's counter moves on by `n`. -/
def ctrAdd (l n : Nat) (x : CoreSt) : CoreSt :=
  { x with ctr := Sparse.set ctrInit x.ctr l ((Sparse.get ctrInit x.ctr l + n) % 2 ^ 64) }

def freeRunning (c : CoreRef) (d : Dev) : Bool :=
  if isMatrix c then rdBit (.vec c) VEC_RNG_CTL 0 d else rdBit (.seq c) VCR_RNG_CTL 0 d

def drawsReg (c : CoreRef) (n : Nat) (d : Dev) : Dev :=
  if isMatrix c then bump64 (.vec c) VEC_DRAWS_LO n d else bump64 (.seq c) VCR_DRAWS_LO n d

end Sys2Proof.Machine
end

