-- ==== Sys2Proof/Machine/Net.lean ====
section
/-! DEFINITION. The mesh and the fabric as every unit uses them: where units sit (R276 to R278), the routing tables (R280,
R281), injection, requests and responses (R287 to R289, R298, R312), and the flow windows (R292, R316). -/

namespace Sys2Proof.Machine

/-! ### Positions -/

/-- A mesh position in package order (R280). -/
def posOf (x y : Nat) : Nat := 16 * y + x
def posX (p : Nat) : Nat := p % 16
def posY (p : Nat) : Nat := p / 16

/-- The block of the router at a position. -/
def posBlk (p : Nat) : Blk := let r := routerAt (posX p) (posY p); .msh r.1 r.2

def diePos (d u v : Nat) : Nat := posOf (8 * (d % 2) + u) (6 * (d / 2) + v)

/-- Router k of a cluster's group (R276). -/
def cluPos (d c k : Nat) : Nat := diePos d (2 * (c % 4) + k % 2) (4 * (c / 4) + k / 2)

/-- The router of the group that a core sits on (R276). -/
def coreK (slot : Nat) : Nat :=
  if slot ≤ 2 then 0 else if slot ≤ 4 || slot = 9 then 1 else if slot ≤ 6 || slot = 11 then 2 else 3

def corePos (c : CoreRef) : Nat := cluPos c.die c.cl (coreK c.slot)
def strPos (d c i : Nat) : Nat := cluPos d c i

/-- The local column of a link port or a far-memory controller (R277). -/
def lnkPos (d i : Nat) : Nat := diePos d ([0, 2, 5, 7][i % 4]?.getD 0) (2 + i / 4)
def fmcPos (d i : Nat) : Nat := diePos d ([1, 4, 6][i % 3]?.getD 0) (2 + i / 3)
def prsPos (d : Nat) : Nat := diePos d 3 2
def snpPos (d : Nat) : Nat := diePos d 3 3
def hostPos : Nat := diePos 0 3 2
def mgmtPos : Nat := diePos 0 3 3

/-- The mesh time of a minimal route (R260): 2 cycles for a hop on a die, 4 for a bridge hop. -/
def meshTime (a b : Nat) : Nat :=
  let dx := max (posX a) (posX b) - min (posX a) (posX b)
  let dy := max (posY a) (posY b) - min (posY a) (posY b)
  let br := b2n (decide (posX a / 8 ≠ posX b / 8)) + b2n (decide (posY a / 6 ≠ posY b / 6))
  2 * (dx + dy) + 2 * br

def isRetired (p : Nat) (d : Dev) : Bool := d.net.retired.contains p

/-- The router that takes a near-store request in (R278, R285): with a port to the controller, nearest the entry router. -/
def nscPos (entry die i : Nat) (d : Dev) : Nat :=
  let ps := (List.range 48).filter fun r =>
    let u := r % 8
    let v := r / 8
    (u % 4 == i || ((v == 2 || v == 3) && (u + 2) % 4 == i)) && !isRetired (diePos die u v) d
  ps.foldl (fun best r =>
    let p := diePos die (r % 8) (r / 8)
    if meshTime entry p < meshTime entry best then p else best)
    (match ps.head? with | some r => diePos die (r % 8) (r / 8) | none => diePos die i 0)

/-- The router that serves a block. -/
def blkPos (entry : Nat) (b : Blk) (d : Dev) : Nat :=
  match b with
  | .nsc k i => nscPos entry k i d
  | .fmc k i => fmcPos k i
  | .lnk k i => lnkPos k i
  | .msh k r => let p := routerPos k r; posOf p.1 p.2
  | .prs k => prsPos k
  | .snp k => snpPos k
  | .die k | .rstd k => diePos k 3 3
  | .clu k c => cluPos k c 0
  | .str k c i => strPos k c i
  | .cor c | .seq c | .arr c | .fed c | .vec c | .txb c | .sct c | .lmm c => corePos c
  | _ => mgmtPos

/-- The router of the unit that an address of this device names. -/
def targetPos (ctx entry addr : Nat) (d : Dev) : Nat :=
  match spotOf ctx addr d with
  | .mem k => blkPos entry (keyBlk k d) d
  | .reg o => match blkAt o with | some b => blkPos entry b d | none => mgmtPos
  | .absent => entry

/-- The address as its target takes it: for a flag that arrives on a flow context the context is the flow's (R289). -/
def flowAddr (ctx addr : Nat) : Nat :=
  if gSpace addr = 4 then gAddr (gDev addr) 4 (ctx * 0x20000 + gOff addr % 0x20000) else addr

/-- The router of a request's issuer. -/
def issuerPos : Issuer → Nat
  | .mgmt | .mcast _ _ => mgmtPos
  | .tack c _ | .sync c _ _ _ => corePos c
  | .fetch d c i _ _ _ | .store d c i _ => strPos d c i
  | .press _ e _ => prsPos (e % 4)
  | .baste _ k _ _ => snpPos k
  | .dump c => corePos c
  | .firmware c _ _ => corePos c

/-- The context in which an issuer's addresses are read. -/
def issuerCtx (i : Issuer) (d : Dev) : Nat :=
  match i with
  | .tack c _ | .sync c _ _ _ => coreCtx c d
  | .fetch k c i x _ _ | .store k c i x =>
    match ((d.net.engines.find? fun p => p.1 == (k * 8 + c) * 2 + i).map (·.2)).bind
        (fun e => e.xfers.find? fun t => t.id == x) with
    | some t => coreCtx t.s.core d
    | none => 0
  | .press x _ _ => x
  | .baste x _ _ _ => x
  | .dump c => coreCtx c d
  | _ => 0

/-! ### Routing tables (R280, R281) -/

/-- The entry of a router's bank for a destination. -/
def rtEntry (p bank dest : Nat) (d : Dev) : Nat := rdB (posBlk p) MSH_RT (dest + 256 * bank) d
def activeBank (p : Nat) (d : Dev) : Nat := rdF (posBlk p) MSH_TBL 0 1 d

/-- The neighbour on an output. -/
def neighbour (p out : Nat) : Option Nat :=
  match out with
  | 0 => if posX p < 15 then some (p + 1) else none
  | 1 => if 0 < posX p then some (p - 1) else none
  | 2 => if posY p < 11 then some (p + 16) else none
  | 3 => if 0 < posY p then some (p - 16) else none
  | _ => none

/-- A router that carries traffic: neither retired nor on a die in reset. -/
def routerUp (p : Nat) (d : Dev) : Bool := !isRetired p d && !inReset (posBlk p) d

/-! Distances for the tables the Marker builds with routers out of service. -/

/-- The shortest distances found in one sweep: `order` lists positions so that each follows its possible next hops. -/
def sweep (up : Nat → Bool) (outs : List Nat) (base : Nat → Option Nat) : List Nat → List (Nat × Nat) → List (Nat × Nat)
  | [], acc => acc
  | p :: ps, acc =>
    let hops := outs.filterMap fun o => (neighbour p o).bind fun q => (acc.find? fun e => e.1 == q).map fun e => e.2 + 1
    let all := (match base p with | some n => [n] | none => []) ++ hops
    match all with
    | [] => sweep up outs base ps acc
    | n :: ns => if up p then sweep up outs base ps ((p, ns.foldl min n) :: acc) else sweep up outs base ps acc

def rising : List Nat := List.range 192
def falling : List Nat := rising.reverse
/-- Positions by falling y and rising x, and the reverse. -/
def mixed : List Nat := (List.range 12).reverse.flatMap fun y => (List.range 16).map fun x => posOf x y

def distOf (t : List (Nat × Nat)) (p : Nat) : Option Nat := (t.find? fun e => e.1 == p).map (·.2)

/-- The hops to `dest` under a turn model: negative-first (0) or positive-first (1). -/
def modelDist (up : Nat → Bool) (model dest : Nat) : List (Nat × Nat) :=
  let at0 (p : Nat) : Option Nat := if p = dest then some 0 else none
  if model = 0 then
    let pos := sweep up [0, 2] at0 falling []
    sweep up [1, 3] (distOf pos) rising []
  else
    let neg := sweep up [1, 3] at0 rising []
    sweep up [0, 2] (distOf neg) falling []

/-- The distances of the second phase of a model alone: its last turn taken. -/
def lastDist (up : Nat → Bool) (model dest : Nat) : List (Nat × Nat) :=
  let at0 (p : Nat) : Option Nat := if p = dest then some 0 else none
  if model = 0 then sweep up [0, 2] at0 falling [] else sweep up [1, 3] at0 rising []

/-- The next hop of a model's dimension order. -/
def dimHop (model p dest : Nat) : Nat :=
  let e := bits (rtDefault (posX p) (posY p) (posX dest) (posY dest)) 0 3
  if model = 0 then e
  else if posX p < posX dest then 0 else if posY p < posY dest then 2
  else if posX dest < posX p then 1 else if posY dest < posY p then 3 else 4

/-- The default route runs through routers in service. -/
def dimOk (up : Nat → Bool) (model dest : Nat) : Nat → Nat → Bool
  | 0, p => up p
  | n + 1, p => up p && (if p = dest then true else
      match neighbour p (dimHop model p dest) with
      | some q => dimOk up model dest n q
      | none => false)

/-- Minimal paths through routers in service, for each of the four quadrants of `dest`. -/
def minTabs (up : Nat → Bool) (dest : Nat) : List (List (Nat × Nat)) :=
  let at0 (p : Nat) : Option Nat := if p = dest then some 0 else none
  [sweep up [0, 2] at0 falling [], sweep up [1, 3] at0 rising [], sweep up [0, 3] at0 mixed.reverse [],
   sweep up [1, 2] at0 mixed []]

/-- The productive directions of R281 that keep a minimal path. -/
def adaptMask (up : Nat → Bool) (tabs : List (List (Nat × Nat))) (p dest : Nat) : Nat :=
  let dx := if posX p < posX dest then [0] else if posX dest < posX p then [1] else []
  let dy := if posY p < posY dest then [2] else if posY dest < posY p then [3] else []
  let dist (q : Nat) : Nat := max (posX q) (posX dest) - min (posX q) (posX dest) + (max (posY q) (posY dest) - min (posY q) (posY dest))
  ((dx ++ dy).map fun o => match neighbour p o with
    | some q => if up q && tabs.any (fun t => distOf t q == some (dist q)) then 2 ^ o else 0
    | none => 0).sum

/-- The table entry of router `p` for `dest` under a model (R281). An unreachable destination has REACH 0. -/
def buildEntry (up : Nat → Bool) (model : Nat) (dist last : List (Nat × Nat)) (tabs : List (List (Nat × Nat))) (p dest : Nat) : Nat :=
  if p = dest then 4 + 256
  else match distOf dist p with
    | none => 4
    | some n =>
      let first := if model = 0 then [1, 3] else [0, 2]
      let second := if model = 0 then [0, 2] else [1, 3]
      let via (t : List (Nat × Nat)) (o : Nat) : Bool :=
        ((neighbour p o).bind fun q => (distOf t q).map fun k => k + 1 == n).getD false
      let outs := [0, 1, 2, 3].filter fun o => (first.contains o && via dist o) || (second.contains o && via last o)
      let esc := if dimOk up model dest 30 p then dimHop model p dest else outs.headD 4
      esc + 16 * adaptMask up tabs p dest + 256

/-- Pairs of routers in service that a model connects. -/
def pairsOf (up : Nat → Bool) (model : Nat) : Nat :=
  (rising.map fun t => if up t then (modelDist up model t).length else 0).sum

/-- The model the Marker takes (R281). -/
def turnModel (up : Nat → Bool) : Nat :=
  let n := (rising.filter up).length
  if pairsOf up 0 = n * n then 0 else if pairsOf up 0 < pairsOf up 1 then 1 else 0

/-- The Marker writes new tables into the inactive bank of every router in service (R283); a router in its safe state accepts no such
write (R300). -/
def buildTables (up : Nat → Bool) (d : Dev) : Dev :=
  let model := turnModel up
  rising.foldl (fun d t =>
    let dist := modelDist up model t
    let last := lastDist up model t
    let tabs := minTabs up t
    rising.foldl (fun d p =>
      if up p && !isSafe (posBlk p) d then
        wrB (posBlk p) MSH_RT (t + 256 * (1 - activeBank p d)) (buildEntry up model dist last tabs p t) d
      else d) d)
    (rising.foldl (fun d p =>
      if up p && !isSafe (posBlk p) d then wrF (posBlk p) MSH_TBL (2 - activeBank p d) 1 model d else d) d)

/-- A router has taken its other bank: the turn model of the bank shows, and injections are held while packets of the bank before remain. -/
def bankTaken (p : Nat) (d : Dev) : Dev :=
  let d := wrF (posBlk p) MSH_CFG 2 1 (rdF (posBlk p) MSH_TBL (1 + activeBank p d) 1 d) d
  if d.net.mesh.isEmpty || d.net.holding.isSome then d else { d with net := { d.net with holding := some d.cycle } }

/-- Every router in service switches to its other bank by a direct write (R284), which a router in its safe state does not accept (R300). -/
def switchTables (up : Nat → Bool) (d : Dev) : Dev :=
  rising.foldl (fun d p => if up p && !isSafe (posBlk p) d then bankTaken p (wrF (posBlk p) MSH_TBL 0 1 (1 - activeBank p d) d) else d) d

/-! ### Injection -/

/-- Class codes (R309). -/
def clSch : Nat := 0
def clReq : Nat := 1
def clRsp : Nat := 2
def clFwd : Nat := 3
def clRed : Nat := 4
def clSvc : Nat := 5

/-- Classes that follow ESC only (R282, R310). -/
def escOnly (cls : Nat) : Bool := cls == clSch || cls == clRed || cls == clSvc

/-- An operation that asks for a response (R287, R309). -/
def isRequest : Op → Bool
  | .put | .get | .add | .cas | .flagAdd | .putNotify | .mcReserve | .mcData => true
  | _ => false

/-- A packet takes its place in the mesh at its entry router, under that router's bank (R280, R282). -/
def enterMesh (m : MeshPkt) (d : Dev) : Dev :=
  let b := activeBank m.at_ d
  let e := rtEntry m.at_ b m.dst d
  let m := { m with bank := b, escape := escOnly m.a.pkt.cls || bits e 4 4 == 0 || !rdBit (posBlk m.at_) MSH_CFG 0 d,
                    a := { m.a with pkt := { m.a.pkt with bank := b } } }
  { d with net := { d.net with mesh := d.net.mesh ++ [m] } }

/-- A packet is injected: held while injections are (R283). -/
def inject (m : MeshPkt) (d : Dev) : Dev :=
  if d.net.holding.isSome then { d with net := { d.net with hold := d.net.hold ++ [m] } } else enterMesh m d

/-! ### Reasons of NACK (R298) -/

def nkTargetReset : Nat := 0x0001
def nkUnreachable : Nat := 0x0002
def nkAbsent : Nat := 0x0103
def nkEcc : Nat := 0x0202
def nkAddress : Nat := 0x0204
def nkPerm : Nat := 0x0601
def nkParity : Nat := 0x0602

/-! ### Responses -/

/-- A response goes back the way of its request's source: within the device through the mesh to the issuer, to another
device through the reservation of R312. It echoes SEQ and the issuer's tracking entry (R308, R312). -/
def respondTo (from_ : Nat) (q : Packet) (op : Op) (aux0 aux1 : Nat) (data : List Byte) (poison : List Bool) (d : Dev) : Dev :=
  let r : Packet := { op := op, cls := clRsp, addr := gAddr q.srcDev 0 0, srcDev := ownDev d, dstFlow := q.srcFlow, srcFlow := q.dstFlow,
                      seq := q.seq, aux0 := aux0, aux1 := aux1, data := data, poison := poison, len := data.length - 1,
                      flow := q.flow, tag := q.tag }
  if q.srcDev = ownDev d then
    match d.net.reqs.find? fun x => if q.flow then x.flow == some q.srcFlow && x.seq == q.seq else x.tag == q.tag && x.flow.isNone with
    | some x => inject { a := { pkt := r }, at_ := from_, dst := issuerPos x.by_, goal := .unit, bank := 0 } d
    | none => d
  else { d with net := { d.net with resv := d.net.resv ++ [{ pkt := r, entry := from_ }] } }

/-- The flow context's LOW moves past the requests answered (R317). -/
def lowAdvance : Nat → FlowSt → FlowSt
  | 0, f => f
  | n + 1, f =>
    if f.answered.contains f.low then
      lowAdvance n { f with low := (f.low + 1) % 65536, answered := f.answered.filter (· != f.low) }
    else f

def flowInit (_ : Nat) : FlowSt := {}
def getFlow (f : Nat) (d : Dev) : FlowSt := Sparse.get flowInit d.net.flows f
def setFlow (f : Nat) (x : FlowSt) (d : Dev) : Dev :=
  { d with net := { d.net with flows := Sparse.set flowInit d.net.flows f x } }
def modFlow (f : Nat) (g : FlowSt → FlowSt) (d : Dev) : Dev := setFlow f (g (getFlow f d)) d

def linkInit (_ : Nat) : LinkSt := {}
def getLink (l : Nat) (d : Dev) : LinkSt := Sparse.get linkInit d.net.links l
def setLink (l : Nat) (x : LinkSt) (d : Dev) : Dev := { d with net := { d.net with links := Sparse.set linkInit d.net.links l x } }
def modLink (l : Nat) (f : LinkSt → LinkSt) (d : Dev) : Dev := setLink l (f (getLink l d)) d

/-- The destination has answered a request of a flow (R317). -/
def flowAnswered (q : Packet) (d : Dev) : Dev :=
  if q.flow && q.srcDev != ownDev d then
    modFlow q.dstFlow (fun f => lowAdvance 64 { f with answered := q.seq :: f.answered }) d
  else d

def flowBound (f : Nat) (d : Dev) : Bool := bit (rdB .fab FAB_FLOW f d) 6
def flowCtx (f : Nat) (d : Dev) : Nat := bits (rdB .fab FAB_FLOW f d) 0 6
def flowQuar (f : Nat) (d : Dev) : Bool := bit (rdB .fab FAB_FLOW f d) 7
def flowKind (f : Nat) (d : Dev) : Nat := bits (rdB .fab FAB_FLOW f d) 8 2
def winPkts (f : Nat) (d : Dev) : Nat := bits (rdB .fab FAB_FLOW f d) 16 7
def winBytes (f : Nat) (d : Dev) : Nat := bits (rdB .fab FAB_FLOW f d) 24 7 * 4096
def peerDev (f : Nat) (d : Dev) : Nat := bits (rdB .fab FAB_FLOW_PEER f d) 0 15
def peerFlow (f : Nat) (d : Dev) : Nat := bits (rdB .fab FAB_FLOW_PEER f d) 16 14

/-- The class a flow carries (R309, FAB_FLOW.KIND). -/
def flowClass (f : Nat) (d : Dev) : Nat := match flowKind f d with | 1 => clSch | 2 => clRed | 3 => clSvc | _ => clReq

/-- The flow context here of a request merged into another: that bound to its source device and flow (R295, R317). -/
def mergedFlow (m : Nat × Nat × Nat) (d : Dev) : Option Nat :=
  (d.net.binds.find? fun b => flowBound b.phys d && peerDev b.phys d == m.1 && peerFlow b.phys d == m.2.1).map (·.phys)

/-- A target's answer to a request, and to those merged into it, each on its own flow (R295, R317). -/
def respond (from_ : Nat) (q : Packet) (op : Op) (aux0 aux1 : Nat) (data : List Byte) (poison : List Bool) (d : Dev) : Dev :=
  let d := respondTo from_ q op aux0 aux1 data poison (flowAnswered q d)
  q.merged.foldl (fun d m =>
    let q := { q with srcDev := m.1, srcFlow := m.2.1, dstFlow := (mergedFlow m d).getD q.dstFlow, seq := m.2.2, merged := [] }
    respondTo from_ q op aux0 aux1 data poison (flowAnswered q d)) d

def respAck (from_ : Nat) (q : Packet) : Dev → Dev := respond from_ q .ack 0 0 [] []
def respNack (from_ reason : Nat) (q : Packet) : Dev → Dev := respond from_ q .nack reason 0 [] []

/-- A router drops a packet (R285): a request is answered by NACK, anything else is not. -/
def dropAt (p reason : Nat) (q : Packet) (d : Dev) : Dev :=
  if isRequest q.op then respNack p reason q (bump (posBlk p) MSH_NACK 1 d) else d

/-! ### Requests and flow windows -/

/-- Bytes that a request counts in the window (R316). -/
def reqBytes (q : Packet) : Nat := match q.op with | .cas | .flagAdd => 8 | .mcReserve => 0 | _ => q.len + 1

def flowOutPkts (f : Nat) (d : Dev) : Nat := (d.net.reqs.filter fun r => r.flow == some f).length
def flowOutBytes (f : Nat) (d : Dev) : Nat := ((d.net.reqs.filter fun r => r.flow == some f).map (·.bytes)).sum

/-- The source may issue a request on a flow (R316, R330). -/
def canEmit (f bytes : Nat) (d : Dev) : Bool :=
  !isSafe .fab d && flowBound f d && decide (flowOutPkts f d + 1 ≤ winPkts f d) &&
    decide (flowOutBytes f d + bytes ≤ winBytes f d)

/-- A new tracking entry. -/
def newReq (i : Issuer) (q : Packet) (flow : Option Nat) (seq : Nat) (d : Dev) : Dev :=
  { d with net := { d.net with nextTag := d.net.nextTag + 1,
                               reqs := d.net.reqs ++ [{ tag := d.net.nextTag, by_ := i, op := q.op, addr := q.addr, bytes := reqBytes q, flow := flow, seq := seq }] } }

/-- Bytes by which SENT and LANDED advance (R292, R296). -/
def countedBytes (q : Packet) : Nat :=
  match q.op with
  | .put | .putNotify | .mcData => q.data.length
  | .add => q.data.length * (if q.cls = clRed then max 1 (q.aux1 % 65536) else 1)
  | _ => 0

/-- A request leaves on its flow (R292, R293, R308, R316, R317): its SEQ, TOTAL and class are set and it asks for link
space. -/
def emit (f : Nat) (i : Issuer) (q : Packet) (d : Dev) : Dev :=
  let s := getFlow f d
  let cls := flowClass f d
  let grp := match i with
    | .press _ _ _ => q.aux0
    | _ => ((d.net.reds.find? fun g => g.ctx == flowCtx f d && g.members.any fun m => m.2.2 == f).map (·.n)).getD 0
  let q := { q with cls := cls, flow := true, srcDev := ownDev d, srcFlow := f, dstFlow := peerFlow f d, seq := s.seq, tag := d.net.nextTag }
  let q := if cls = clRed && q.op = .add then { q with aux0 := grp, aux1 := 1 } else q
  let sent := (rdB64 .fab FAB_FLOW_SENT_LO f d + countedBytes q) % 2 ^ 48
  let q := { q with total := if q.last then sent else 0 }
  let d := wrB64 .fab FAB_FLOW_SENT_LO f sent (setFlow f { s with seq := (s.seq + 1) % 65536 } (newReq i q (some f) s.seq d))
  { d with net := { d.net with resv := d.net.resv ++ [{ pkt := q, entry := issuerPos i }] } }

/-- The Press of a die works: neither it nor die 0's is safe, disabled or in reset (R373, R400). -/
def pressRuns (die : Nat) (d : Dev) : Bool :=
  !idle (.prs die) d && !inReset (.prs die) d && !idle (.prs 0) d && !inReset (.prs 0) d

/-- The Bastes of the device work (R373, R422). -/
def basteRuns (d : Dev) : Bool := (List.range 4).all fun k => !idle (.snp k) d && !inReset (.snp k) d

/-- The unit behind a held request may issue it now: a Press or a Baste that does not run issues nothing (R400, R422). -/
def issuerGoes (i : Issuer) (d : Dev) : Bool :=
  match i with
  | .press _ e _ => pressRuns (e % 4) d
  | .baste _ _ _ _ => basteRuns d
  | _ => true

/-- Requests that waited for the window are issued in their original order (R316, R330). -/
def pumpFlow : Nat → Nat → Dev → Dev
  | 0, _, d => d
  | n + 1, f, d =>
    match (getFlow f d).held.find? fun h => issuerGoes h.1 d with
    | some (i, q) =>
      if canEmit f (reqBytes q) d then pumpFlow n f (emit f i q (modFlow f (fun x => { x with held := x.held.erase (i, q) }) d)) else d
    | none => d

def pump (f : Nat) (d : Dev) : Dev := pumpFlow (getFlow f d).held.length f d

/-- A request for a flow: issued, or held until the window has room. Its tag says until then when it came. -/
def sendFlow (f : Nat) (i : Issuer) (q : Packet) (d : Dev) : Dev :=
  if !((getFlow f d).held.any fun h => issuerGoes h.1 d) && canEmit f (reqBytes q) d then emit f i q d
  else
    let q := { q with tag := d.net.nextTag }
    modFlow f (fun x => { x with held := x.held ++ [(i, q)] }) { d with net := { d.net with nextTag := d.net.nextTag + 1 } }

/-- The flow whose first held request is the oldest of those that can go. -/
def oldestHeld (d : Dev) : Option Nat :=
  (d.net.flows.foldl (fun (best : Option (Nat × Nat)) p => match p.2.held.find? fun h => issuerGoes h.1 d with
    | some (_, q) =>
      if canEmit p.1 (reqBytes q) d && (match best with | some b => decide (q.tag < b.2) | none => true) then some (p.1, q.tag) else best
    | none => best) none).map (·.1)

/-- Held requests of all flows are issued in their original order (R330). -/
def pumpAll : Nat → Dev → Dev
  | 0, d => d
  | n + 1, d => match oldestHeld d with
    | some f => pumpAll n (pumpFlow 1 f d)
    | none => d

/-- Every held request that can go does. -/
def pumpHeld (d : Dev) : Dev := pumpAll (d.net.flows.map fun f => f.2.held.length).sum d

/-- A request to a unit of the device itself: it crosses the mesh only and carries no flow context (R21, R289). -/
def sendLocal (i : Issuer) (q : Packet) (d : Dev) : Dev :=
  let q := { q with flow := false, srcDev := ownDev d, tag := d.net.nextTag }
  let e := issuerPos i
  let m : MeshPkt := { a := { pkt := q }, at_ := e, dst := targetPos (issuerCtx i d) e q.addr d, goal := .unit, bank := 0 }
  inject m (newReq i q none 0 d)

/-- A request goes where its address says; to another device it needs a flow. -/
def sendOp (i : Issuer) (flow : Option Nat) (q : Packet) (d : Dev) : Dev :=
  if gDev q.addr = ownDev d then sendLocal i q d
  else match flow with
    | some f => sendFlow f i q d
    | none => d

/-- The flow context of a logical flow of a context (R256). -/
def boundFlow (ctx n : Nat) (d : Dev) : Option Nat :=
  (d.net.binds.find? fun b => b.ctx == ctx && b.n == n).map (·.phys)

/-- The flow of unscheduled requests from this device to another in a context: the lowest-numbered one (log entry 22). -/
def reqFlow (ctx dst : Nat) (d : Dev) : Option Nat :=
  let bs := d.net.binds.filter fun b => b.ctx == ctx && b.srcDev == ownDev d && b.dstDev == dst && flowKind b.phys d == 0
  (bs.foldl (fun (best : Option FlowBind) b => match best with
    | some x => if b.n < x.n then some b else some x
    | none => some b) none).map (·.phys)

/-- The control flow of a core to a device: its lowest-numbered logical flow there (R289). -/
def controlFlow (c : CoreRef) (dst : Nat) (d : Dev) : Option Nat :=
  let ctx := coreCtx c d
  match logicalOf c d with
  | none => none
  | some l =>
    let bs := d.net.binds.filter fun b =>
      b.ctx == ctx && b.srcTy == coreTy c && b.srcCore == l && b.srcDev == ownDev d && b.dstDev == dst
    (bs.foldl (fun (best : Option FlowBind) b => match best with
      | some x => if b.n < x.n then some b else some x
      | none => some b) none).map (·.phys)

/-- A response has come for a request: its tracking entry is freed and the window opens (R312, R316). -/
def takeReq (p : Packet) (d : Dev) : Option Req × Dev :=
  let hit (x : Req) : Bool := if p.flow then x.flow == some p.dstFlow && x.seq == p.seq else x.tag == p.tag && x.flow.isNone
  match d.net.reqs.find? hit with
  | some x => (some x, { d with net := { d.net with reqs := d.net.reqs.filter fun y => y.tag != x.tag } })
  | none => (none, d)

/-- The packet, if it stands among those that have reached their unit, is taken from there. -/
def takeArrived (a : Arrival) (d : Dev) : Dev :=
  { d with net := { d.net with arrived := d.net.arrived.erase a, memHeld := d.net.memHeld.erase a } }

/-- The same by the packet alone. -/
def takePacket (p : Packet) (d : Dev) : Dev :=
  match d.net.arrived.find? fun a => decide (a.pkt = p) with
  | some a => takeArrived a d
  | none => d

/-- The context in which a packet's address is read at its target (R289): that of its flow context, or its issuer's. -/
def arrCtx (a : Arrival) (d : Dev) : Nat :=
  if a.pkt.flow then flowCtx a.pkt.dstFlow d
  else match d.net.reqs.find? fun x => x.tag == a.pkt.tag with
    | some x => issuerCtx x.by_ d
    | none => 0

/-- Payload flits and the poison of the bytes they hold (R234, R308): byte i of the payload lies in flit (32 + i) / 64. -/
def flitPoison (ps : List Bool) (n : Nat) : List Bool :=
  (List.range ((32 + n + 63) / 64)).map fun f => (List.range n).any fun i => (32 + i) / 64 == f && (ps[i]?).getD false
def bytePoison (fs : List Bool) (n : Nat) : List Bool := (List.range n).map fun i => (fs[(32 + i) / 64]?).getD false

end Sys2Proof.Machine
end

