-- ==== Sys2Proof/Machine/Mesh.lean ====
section
/-! DEFINITION. Ports of the target (R250, R297, R300), forwarding in the mesh (R280, R282, R284 to R286, R295, R299) and the release of held
injections (R283). -/

namespace Sys2Proof.Machine

/-! ### The port of the target (R250, R297, R300) -/

/-- The block at a place of the device. -/
def spotBlk (s : Spot) (d : Dev) : Option Blk :=
  match s with
  | .mem k => some (keyBlk k d)
  | .reg o => blkAt o
  | .absent => none

/-- The address of a packet as the device reads it. -/
def arrAddr (a : Arrival) (d : Dev) : Nat := if a.pkt.flow then flowAddr (flowCtx a.pkt.dstFlow d) a.pkt.addr else a.pkt.addr

def arrSpot (a : Arrival) (d : Dev) : Spot := spotOf (arrCtx a d) (arrAddr a d) d

/-- The unit of the device that issued a packet without a flow. -/
def localIssuer (q : Packet) (d : Dev) : Option Issuer :=
  if q.flow then none else (d.net.reqs.find? fun x => x.tag == q.tag).map (·.by_)

/-- The block that issues a request, for its origin ID. -/
def issuerBlk : Issuer → Blk
  | .mgmt => .mgc
  | .tack c _ | .sync c _ _ _ => .seq c
  | .fetch d c i _ _ _ | .store d c i _ => .str d c i
  | .mcast _ _ => .fab
  | .press _ e _ => .prs (e % 4)
  | .baste _ k _ _ => .snp k
  | .dump c => .arr c
  | .firmware c _ _ => .cor c

/-- The unit is a memory, whose safe state has rules of its own (R250). -/
def memUnit : Blk → Bool
  | .lmm _ | .nsc _ _ | .fmc _ _ => true
  | _ => false

/-- The port of the unit or, for a unit of a core, of the core, or of its router is fenced. -/
def portFenced (p : Nat) (b : Blk) (d : Dev) : Bool :=
  (fenced b d && !(memUnit b && isSafe b d)) || fenced (posBlk p) d || (match blkCore b with | some c => fenced (.cor c) d | none => false)

/-- A request is refused at the port: its reason. -/
def refusedAt (p : Nat) (b : Blk) (reg : Bool) (d : Dev) : Option Nat :=
  if inReset b d || portFenced p b d then some nkTargetReset
  else match b with
    | .nsc _ _ | .fmc _ _ => if isSafe b d && !reg then some nkParity else none
    | _ => none

/-- A memory that performs no operation holds the request (R47, R250). -/
def holdsReq (b : Blk) (reg : Bool) (d : Dev) : Bool := memUnit b && idle b d && !reg

/-- An operation on memory or registers, which its address brings to a unit. -/
def toUnit : Op → Bool
  | .put | .get | .add | .cas | .flagAdd | .putNotify => true
  | _ => false

/-- The request that a response answers. -/
def answeredReq (p : Packet) (d : Dev) : Option Req :=
  d.net.reqs.find? fun x => if p.flow then x.flow == some p.dstFlow && x.seq == p.seq else x.tag == p.tag && x.flow.isNone

/-- The unit of this device that a packet is for: its address's, or the issuer of the request that it answers. -/
def packetUnit (a : Arrival) (d : Dev) : Option Blk :=
  if toUnit a.pkt.op then spotBlk (arrSpot a d) d
  else if isRequest a.pkt.op then some .fab
  else (answeredReq a.pkt d).map fun r => issuerBlk r.by_

/-- The output of a router that leads to a unit (R276 to R278, MSH_PORT_SEL): 4 to 7 its local ports, 8 and 9 its near-store ports. -/
def unitPort (u : Option Blk) (p : Nat) : Nat :=
  match u with
  | some (.nsc _ i) => if posX p % 8 % 4 = i then 8 else 9
  | some (.str _ _ _) => 7
  | some (.fmc _ _) | some (.lnk _ _) | some (.prs _) | some (.snp _) => 4
  | some b => match blkCore b with
    | some c => 4 + ([0, 1, 2, 0, 1, 0, 1, 0, 1, 2, 2, 2][c.slot]?).getD 0
    | none => 5
  | none => 5

/-- The memory controllers, or the unit, that a request's bytes lie in: a controller for each 256 bytes of the near store and each 128 of
far memory (R223, R230). -/
def spotBlks (s : Spot) (n : Nat) (d : Dev) : List Blk :=
  match s with
  | .mem k =>
    let g := if keySpace k = 1 then 128 else 256
    ((List.range ((k + max 1 n - 1) / g - k / g + 1)).map fun i => keyBlk (max k ((k / g + i) * g)) d).eraseDups
  | .reg o => (blkAt o).toList
  | .absent => []

/-- The refusal of a request at the ports of the units that its bytes lie in. -/
def portAnswer (p : Nat) (s : Spot) (n : Nat) (d : Dev) : Option Nat :=
  (spotBlks s n d).findSome? fun b => refusedAt p b (match s with | .reg _ => true | _ => false) d

/-- Bytes that a request names. -/
def reqLen (q : Packet) : Nat := match q.op with | .cas | .flagAdd => 8 | _ => q.len + 1

/-! ### Errors on a hop (R286) -/

/-- Flits of a packet (R308). -/
def flits (q : Packet) : Nat := (32 + q.data.length + 63) / 64

/-- What a hop's error code finds: nothing (0), a corrected error (1), or an uncorrected error in flit n (2 + n), of which flit 0 is the header
flit. A number beyond the packet's flits finds nothing. -/
def hopFlaw (flaw : Nat) (q : Packet) : Nat := if flaw < 2 + flits q then flaw else 0
def headerLost (flaw : Nat) : Bool := flaw == 2

/-- The router's counts and event. -/
def flitErr (p flaw : Nat) (d : Dev) : Dev :=
  let b := posBlk p
  if flaw = 0 then d
  else if flaw = 1 then bumpSat b MSH_ECC 0 16 d
  else setEvent b 8 (bumpSat b MSH_ECC 16 16 d)

/-- The flit's poison bit is set (DEDUCED, log entry 54). -/
def poisonFlit (flaw : Nat) (q : Packet) : Packet :=
  if flaw < 3 then q
  else
    let n := (32 + q.data.length + 63) / 64
    { q with poison := (List.range n).map fun i => (q.poison[i]?).getD false || i == flaw - 2 }

/-! ### Merging (R295, R296) -/

/-- Elementwise sum of payloads (R288): INT32, INT64, or ESF with its flags ORed. -/
def addEsf (x y : List Byte) : List Byte :=
  toBytes 36 ((ofBytes (x.take 36) + ofBytes (y.take 36)) % 2 ^ 288) ++
  [((x.drop 36).headD 0) ||| ((y.drop 36).headD 0), 0, 0, 0]

def addElems (atype : Nat) : Nat → List Byte → List Byte → List Byte
  | 0, _, _ => []
  | n + 1, x, y =>
    match atype with
    | 0 => toBytes 4 ((ofBytes (x.take 4) + ofBytes (y.take 4)) % 2 ^ 32) ++ addElems atype n (x.drop 4) (y.drop 4)
    | 1 => toBytes 8 ((ofBytes (x.take 8) + ofBytes (y.take 8)) % 2 ^ 64) ++ addElems atype n (x.drop 8) (y.drop 8)
    | 2 => toBytes 4 (fAdd (ofBytes (x.take 4)) (ofBytes (y.take 4))) ++ addElems atype n (x.drop 4) (y.drop 4)
    | 3 => toBytes 2 (bf16Add (ofBytes (x.take 2)) (ofBytes (y.take 2))) ++ addElems atype n (x.drop 2) (y.drop 2)
    | _ => addEsf (x.take 40) (y.take 40) ++ addElems atype n (x.drop 40) (y.drop 40)

/-- Bytes of an ADD element (R288). -/
def atypeSize (t : Nat) : Nat := match t with | 0 | 2 => 4 | 1 => 8 | 3 => 2 | _ => 40

/-- The output that a packet of a class without adaptive routes waits for: the next hop, or the unit or link at this router. -/
def waitsFor (m : MeshPkt) (d : Dev) : Nat × Option Goal :=
  let o := bits (rtEntry m.at_ m.bank m.dst d) 0 3
  (o, if o < 4 then none else some m.goal)

/-- Two packets that a router may merge: RED ADDs of one group, address, type and length that wait for one output (R295). -/
def mergeable (d : Dev) (x y : MeshPkt) : Bool :=
  let p := x.a.pkt
  let q := y.a.pkt
  p.op == .add && q.op == .add && p.cls == clRed && q.cls == clRed && (p.atype == 0 || p.atype == 1 || p.atype == 4) &&
    p.atype == q.atype && p.aux0 == q.aux0 && p.addr == q.addr && p.data.length == q.data.length &&
    x.at_ == y.at_ && decide (waitsFor x d = waitsFor y d)

/-- The merged packet: the one that waited first, with the other's payload and contributions added (R295, R296) (DEDUCED, log entry 52). -/
def mergePkts (x y : MeshPkt) : MeshPkt :=
  let p := x.a.pkt
  let q := y.a.pkt
  let n := max p.poison.length q.poison.length
  { x with a := { x.a with pkt := { p with
      data := addElems p.atype (p.data.length / atypeSize p.atype) p.data q.data,
      poison := (List.range n).map fun i => (p.poison[i]?).getD false || (q.poison[i]?).getD false,
      aux1 := max 1 p.aux1 + max 1 q.aux1,
      merged := p.merged ++ [(q.srcDev, q.srcFlow, q.seq)] ++ q.merged } } }

/-- A packet gives up the transmit space it holds. -/
def leaveSpace (m : MeshPkt) (d : Dev) : Dev :=
  match m.goal, m.space with
  | .link l, some e => modLink l (fun s => { s with coming := s.coming.erase e }) d
  | _, _ => d

/-- The packets that wait with this one in the router and merge with it. -/
def mergeAt (m : MeshPkt) (d : Dev) : MeshPkt × Dev :=
  if !rdBit (posBlk m.at_) MSH_CFG 1 d || isSafe (posBlk m.at_) d then (m, d)
  else
    let mates := d.net.mesh.filter (mergeable d m)
    let d := mates.foldl (fun d y => leaveSpace y d) { d with net := { d.net with mesh := d.net.mesh.filter fun y => !mergeable d m y } }
    (mates.foldl mergePkts m, bump64 (posBlk m.at_) MSH_COMB_LO mates.length d)

/-! ### Forwarding -/

/-- Why the next hop cannot be taken: a retired router or a router of a die in reset (R284, R285). -/
def hopDown (q : Nat) (d : Dev) : Option Nat :=
  if isRetired q d then some nkUnreachable else if inReset (posBlk q) d then some nkTargetReset else none

/-- What a port absorbs, the router answers, if it asks for an answer, and counts (R297, R299). -/
def absorbAt (p reason : Nat) (q : Packet) (d : Dev) : Dev :=
  if !isRequest q.op then d
  else respNack p reason q (if reason = nkTargetReset then bump (posBlk p) MSH_NACK 1 d else d)

/-- A packet leaves the mesh at its router: to its unit, whose port may absorb it, or into the transmit buffer where its space is reserved
(R297, R300, R312). -/
def eject (m : MeshPkt) (d : Dev) : Dev :=
  let p := m.at_
  let u := packetUnit m.a d
  let sent (o : Nat) (d : Dev) : Dev := bumpB64 (posBlk p) MSH_FLITS_LO o (flits m.a.pkt) d
  match m.goal with
  | .unit =>
    match (if toUnit m.a.pkt.op then portAnswer p (arrSpot m.a d) (reqLen m.a.pkt) d else none) with
    | some reason => absorbAt p reason m.a.pkt d
    | none =>
      let d := sent (unitPort u p) d
      { d with net := { d.net with arrived := d.net.arrived ++ [m.a] } }
  | .link l =>
    let e := m.space.getD { pkt := m.a.pkt }
    let d := leaveSpace m d
    if fenced (posBlk p) d then absorbAt p nkTargetReset m.a.pkt d
    else modLink l (fun s => { s with tx := s.tx ++ [{ e with pkt := m.a.pkt }] }) (sent 4 d)

/-- The outputs that R282 lets a packet take, and whether it is then in the escape subclass. Which adaptive output has the most
credits, and whether the packet leaves for the escape subclass, depends on buffers the spec does not size: free. -/
def chooseOut (m : MeshPkt) (d : Dev) : Nat × Bool × Dev :=
  let b := posBlk m.at_
  let e := rtEntry m.at_ m.bank m.dst d
  let esc := bits e 0 3
  let adaptive := [0, 1, 2, 3].filter fun o => bit (bits e 4 4) o
  if m.escape || adaptive.isEmpty || !rdBit b MSH_CFG 0 d || isSafe b d then (esc, true, d)
  else
    let r := freeNow d % (adaptive.length + 1)
    match adaptive[r]? with
    | some o => (o, false, freeNext d)
    | none => (esc, true, freeNext d)

/-- A packet is dropped on its way, and gives up the transmit space it holds. -/
def dropPacket (m : MeshPkt) (reason : Nat) (d : Dev) : Dev := dropAt m.at_ reason m.a.pkt (leaveSpace m d)

/-- A destination that the tables cannot reach: its router is on a die in reset, or no route leads there (R284, R285). -/
def noRoute (m : MeshPkt) (d : Dev) : Nat := if inReset (posBlk m.dst) d then nkTargetReset else nkUnreachable

/-- A packet takes the output that its bank's table gives it. Where the table ejects it at a router that is not its destination, no unit
there takes it: it is dropped (DESIGN CHOICE, log entry 142). -/
def takeHop (m : MeshPkt) (d : Dev) : Dev :=
  let c := chooseOut m d
  let d := c.2.2
  if c.1 = 4 then (if m.at_ = m.dst then eject m d else dropPacket m nkUnreachable d)
  else match neighbour m.at_ c.1 with
    | none => dropPacket m nkUnreachable d
    | some q =>
      match hopDown q d with
      | some reason => dropPacket m reason d
      | none =>
        let d := bumpB64 (posBlk m.at_) MSH_FLITS_LO c.1 (flits m.a.pkt) d
        { d with net := { d.net with mesh := d.net.mesh ++ [{ m with at_ := q, escape := c.2.1 }] } }

/-- MESH_PACKET_FORWARD (R282): packet `k` of the mesh takes its next hop, or leaves the mesh (DEDUCED, log entry 51). -/
def meshForward (k flaw : Nat) (d : Dev) : Dev :=
  match d.net.mesh[k]? with
  | none => d
  | some m =>
    let flaw := hopFlaw flaw m.a.pkt
    let d := { d with net := { d.net with mesh := d.net.mesh.eraseIdx k } }
    let d := flitErr m.at_ flaw d
    if headerLost flaw || isRetired m.at_ d then dropPacket m nkUnreachable d
    else
      let m := { m with a := { m.a with pkt := poisonFlit flaw m.a.pkt } }
      let r := mergeAt m d
      if !bit (rtEntry m.at_ m.bank m.dst r.2) 8 then dropPacket r.1 (noRoute m r.2) r.2 else takeHop r.1 r.2

/-- No packet of the bank before remains anywhere in the package. -/
def oldGone (d : Dev) : Bool := d.net.mesh.all fun m => m.bank == activeBank m.at_ d

/-- The cycles of a hold, counted in every router in service. -/
def countHold (n : Nat) (d : Dev) : Dev :=
  rising.foldl (fun d p => if routerUp p d then bump (posBlk p) MSH_HOLD n d else d) d

/-- INJECTION_HOLD_RELEASE (R283): held injections proceed in their original order. -/
def holdRelease (d : Dev) : Dev :=
  match d.net.holding with
  | some t =>
    if oldGone d then
      let held := d.net.hold
      let d := countHold (d.cycle - t) { d with net := { d.net with hold := [], holding := none } }
      held.foldl (fun d m => enterMesh m d) d
    else d
  | none => d

/-- MESH_PACKET_FORWARD (R282). -/
def execMeshPacketForward (k : Nat) (flaw : Nat) (s : State) := s.onDev (meshForward k flaw)
/-- INJECTION_HOLD_RELEASE (R283). -/
def execInjectionHoldRelease (s : State) := s.onDev holdRelease

end Sys2Proof.Machine
end

