-- ==== Sys2Proof/Machine/Links.lean ====
section
/-! DEFINITION. Staold links (chapter "Staold links and the torus"): the torus route, reservations, packets on the wire, blocks and
retry, states and training. -/

namespace Sys2Proof.Machine

/-! ### Links, axes, routes (R301, R302, R313, R314) -/

def lnkBlk (l : Nat) : Blk := .lnk (l / 8) (l % 8)
def lnkAt (l : Nat) : Nat := lnkPos (l / 8) (l % 8)

/-- Axis, side (0 plus, 1 minus) and index of a link (R301). -/
def linkAxis (l : Nat) : Nat := if l < 8 then 0 else (l - 8) / 6 + 1
def linkSide (l : Nat) : Nat := if l < 8 then l / 4 else (l - 8) % 6 / 3
def linkIndex (l : Nat) : Nat := if l < 8 then l % 4 else (l - 8) % 3

/-- The links of a side of an axis. -/
def bundle (axis side : Nat) : List Nat :=
  if axis = 0 then countFrom (4 * side) 4 else countFrom (8 + 6 * (axis - 1) + 3 * side) 3

/-- A tick link (R195): the first of its bundle. -/
def isTickLink (l : Nat) : Bool := linkIndex l == 0

/-- The link on the neighbour that a link meets (R301). -/
def partner (l : Nat) : Nat := ((bundle (linkAxis l) (1 - linkSide l))[linkIndex l]?).getD 0

/-- A device number with one coordinate replaced. -/
def withCoord (dv n x : Nat) : Nat := putBits dv (3 * n) 3 x

/-- The neighbour over a link (R22, R301). -/
def neighbourDev (l : Nat) (d : Dev) : Nat :=
  let n := linkAxis l
  let len := axisLen n d
  let c := coordOf (ownDev d) n
  withCoord (ownDev d) n ((if linkSide l = 0 then c + 1 else c + len - 1) % len)

def linkPresent (l : Nat) (d : Dev) : Bool := decide (1 < axisLen (linkAxis l) d)

/-- LNK_STATE.STATE: a link of an axis of length 1 is ABSENT (R302, R328). -/
def linkState (l : Nat) (d : Dev) : Nat := if linkPresent l d then rdF (lnkBlk l) LNK_STATE 0 3 d else 0
def linkUp (l : Nat) (d : Dev) : Bool := linkState l d == 3

/-- A link that grants reservations (R326, R330). -/
def linkGrants (l : Nat) (d : Dev) : Bool := linkUp l d && !isSafe (lnkBlk l) d

/-- The axis a packet for a device takes: the lowest on which the coordinates differ. -/
def axisTo (dst : Nat) (d : Dev) : Option Nat :=
  (List.range 5).find? fun n => coordOf dst n != coordOf (ownDev d) n

/-- The virtual channel of a packet (R310). -/
def vcOf (q : Packet) : Nat := 2 * q.cls + q.sub

/-- Flits dedicated to a VC at the receiver; the RED VCs have their region (R311). The shared pool is entry 12 (DEDUCED, log entry 131). -/
def vcSpace (v : Nat) : Nat := if v = 8 || v = 9 then 1024 else 72
def fullCredit : List Nat := (List.range 12).map vcSpace ++ [3376]
def isRedVc (v : Nat) : Bool := v == 8 || v == 9

/-- Credits a sender holds for a VC with the shared pool. -/
def credits (v : Nat) (s : LinkSt) : Nat :=
  (s.credit[v]?).getD 0 + (if isRedVc v then 0 else (s.credit[12]?).getD 0)

/-- SUB on an axis (R314): 0 while the path still crosses the dateline. -/
def subOn (n side dst c : Nat) : Nat :=
  if side = 0 then (if coordOf dst n < c then 0 else 1) else (if c < coordOf dst n then 0 else 1)

def sumCredits (v : Nat) (ls : List Nat) (d : Dev) : Nat := (ls.map fun l => credits v (getLink l d)).sum

/-- The side of an axis that a packet takes (R313). -/
def sideTo (q : Packet) (n dst : Nat) (d : Dev) : Nat :=
  let len := axisLen n d
  let c := coordOf (ownDev d) n
  let δ := (coordOf dst n + len - c) % len
  if 2 * δ < len then 0
  else if len < 2 * δ then 1
  else if escOnly q.cls then 0
  else
    let v (side : Nat) := 2 * q.cls + subOn n side dst c
    let up (side : Nat) := (bundle n side).filter fun l => linkGrants l d
    if sumCredits (v 0) (up 0) d < sumCredits (v 1) (up 1) d then 1 else 0

/-- The first of the links that holds the most credits. -/
def mostCredits (v : Nat) (d : Dev) : List Nat → Option Nat
  | [] => none
  | l :: ls => match mostCredits v d ls with
    | some m => if credits v (getLink m d) ≤ credits v (getLink l d) then some l else some m
    | none => some l

/-- The device a packet goes to. -/
def packetDev (q : Packet) : Nat := gDev q.addr

/-- The flow context of a scheduled flow that only crosses this device (R259, R313): that of the packet's two devices and flow at its source. -/
def transitFlow (q : Packet) (dst : Nat) (d : Dev) : Option Nat :=
  (d.net.binds.find? fun b => b.srcDev == q.srcDev && b.dstDev == dst && b.srcDev != ownDev d && b.dstDev != ownDev d &&
    peerFlow b.phys d == q.srcFlow).map (·.phys)

/-- The link a reservation is for, and the subclass of the packet on it (R313, R314). -/
def chooseLink (r : Resv) (d : Dev) : Option (Nat × Nat) :=
  let dst := packetDev r.pkt
  let go (n side sub : Nat) : Option (Nat × Nat) :=
    let up := (bundle n side).filter fun l => linkGrants l d
    let fitted := if r.from_.isNone && r.pkt.srcDev == ownDev d then (getFlow r.pkt.srcFlow d).link
      else (transitFlow r.pkt dst d).bind fun f => (getFlow f d).link
    let l := if r.pkt.cls = clSch || r.pkt.cls = clRed then (fitted.filter fun l => up.contains l).orElse fun _ => up.head?
             else if r.pkt.cls = clSvc then up.head?
             else mostCredits (2 * r.pkt.cls + sub) d up
    l.map fun l => (l, sub)
  match r.hop with
  | some (n, side) => go n side r.pkt.sub
  | none => match axisTo dst d with
    | some n =>
      let side := sideTo r.pkt n dst d
      go n side (subOn n side dst (coordOf (ownDev d) n))
    | none => none

/-! ### Transmit space (R311, R312) -/

/-- Flits in use of a VC's dedicated transmit space, and of the shared pool. -/
def txUsed (v : Nat) (s : LinkSt) : Nat := (((s.tx ++ s.coming).filter fun e => vcOf e.pkt == v).map (·.ded)).sum
def txShared (s : LinkSt) : Nat := ((s.tx ++ s.coming).map (·.shr)).sum

/-- The charge of a packet (R311, R312): 72 flits dedicated to each VC first, then the shared pool of 1,184. -/
def txCharge (q : Packet) (s : LinkSt) : Nat × Nat :=
  let ded := min (flits q) (72 - txUsed (vcOf q) s)
  (ded, flits q - ded)

/-- The transmit buffer has room for all its flits. -/
def txRoom (q : Packet) (s : LinkSt) : Bool := decide (txShared s + (txCharge q s).2 ≤ 1184)

/-- Flits leave a link's receive buffer: their credits are to be returned (R311). -/
def freeCharge (f : Option (Nat × Nat × Nat)) (v : Nat) (d : Dev) : Dev :=
  match f with
  | some (l, ded, shared) => modLink l (fun s =>
      { s with charged := modNth (· - shared) 12 (modNth (· - ded) v s.charged),
               freed := modNth (· + shared) 12 (modNth (· + ded) v s.freed) }) d
  | none => d

/-- The oldest reservation of each class: no class waits for another's space (R315). -/
def classHeads : List Resv → List Nat → List Resv
  | [], _ => []
  | r :: rs, seen => if seen.contains r.pkt.cls then classHeads rs seen else r :: classHeads rs (r.pkt.cls :: seen)

/-- A reservation's packet with the subclass it takes on its link. -/
def resvPkt (r : Resv) (d : Dev) : Packet := { r.pkt with sub := ((chooseLink r d).map (·.2)).getD 0 }

/-- The reservation that a link grants next (R312, R315): the oldest of those that have room, in their classes' order. -/
def nextResv (l : Nat) (d : Dev) : Option Resv :=
  (classHeads (d.net.resv.filter fun r => (chooseLink r d).any fun c => c.1 == l) []).find? fun r => txRoom (resvPkt r d) (getLink l d)

/-- TX_RESERVATION (R312): a reservation for the link is granted, and its packet enters the mesh bound for it. -/
def txReserve (l : Nat) (d : Dev) : Dev :=
  if !linkGrants l d then d
  else match nextResv l d with
    | none => d
    | some r =>
      let q := resvPkt r d
      let c := txCharge q (getLink l d)
      let e : TxEnt := { pkt := q, ded := c.1, shr := c.2, hop := r.hop }
      let d := freeCharge r.from_ (vcOf r.pkt) { d with net := { d.net with resv := d.net.resv.erase r } }
      let d := modLink l (fun s => { s with coming := s.coming ++ [e] }) d
      inject { a := { pkt := q }, at_ := r.entry, dst := lnkAt l, goal := .link l, bank := 0, space := some e } d

/-! ### Packets on the wire (R306, R308, R309) -/

def opCode : Op → Nat
  | .put => 0 | .get => 1 | .add => 2 | .cas => 3 | .flagAdd => 4 | .putNotify => 5 | .ack => 8 | .nack => 9 | .data => 10
  | .casOld => 11 | .mcReserve => 12 | .mcGrant => 13 | .mcData => 14 | .reserved c => c

def opOf : Nat → Op
  | 0 => .put | 1 => .get | 2 => .add | 3 => .cas | 4 => .flagAdd | 5 => .putNotify | 8 => .ack | 9 => .nack | 10 => .data
  | 11 => .casOld | 12 => .mcReserve | 13 => .mcGrant | 14 => .mcData | c => .reserved c

/-- P of a header (R308). -/
def payloadLen (op : Op) (len : Nat) : Nat :=
  match op with
  | .put | .putNotify | .add | .data | .mcData => len + 1
  | .cas => 16
  | .flagAdd | .casOld => 8
  | _ => 0

/-- The 32 header bytes (R308). -/
def headerBytes (q : Packet) : List Byte :=
  toBytes 8 q.addr ++ toBytes 2 q.srcDev ++ toBytes 2 q.dstFlow ++ toBytes 2 q.srcFlow ++ toBytes 2 q.seq ++
  toBytes 1 (opCode q.op + 16 * q.cls + 128 * q.sub) ++ toBytes 1 (q.atype + 16 * b2n q.last + 32 * q.bank) ++
  toBytes 2 q.len ++ toBytes 6 q.total ++ toBytes 2 q.aux0 ++ toBytes 4 q.aux1

/-- The packet that header bytes and payload spell; `bad` where a reserved bit is set. -/
def packetOf (bs : List Byte) (poison : List Bool) : Packet :=
  let f (i n : Nat) : Nat := ofBytes ((bs.drop i).take n)
  let op := opOf (bits (f 16 1) 0 4)
  let len := bits (f 18 2) 0 13
  { op := op, cls := bits (f 16 1) 4 3, sub := bits (f 16 1) 7 1, addr := f 0 8, srcDev := bits (f 8 2) 0 15,
    dstFlow := bits (f 10 2) 0 14, srcFlow := bits (f 12 2) 0 14, seq := f 14 2, atype := bits (f 17 1) 0 4,
    last := bit (f 17 1) 4, bank := bits (f 17 1) 5 1, len := len, total := f 20 6, aux0 := f 26 2, aux1 := f 28 4,
    data := (bs.drop 32).take (payloadLen op len), poison := poison, flow := true,
    bad := bit (f 8 2) 15 || bits (f 10 2) 14 2 != 0 || bits (f 12 2) 14 2 != 0 || bits (f 17 1) 6 2 != 0 || bits (f 18 2) 13 3 != 0 }

/-- Classes that may carry an operation (R309). -/
def opInClass (q : Packet) : Bool :=
  match q.cls with
  | 0 => q.op == .put || q.op == .add || q.op == .putNotify
  | 1 => q.op == .put || q.op == .get || q.op == .add || q.op == .cas || q.op == .flagAdd || q.op == .putNotify || q.op == .mcReserve
  | 2 => q.op == .ack || q.op == .nack || q.op == .data || q.op == .casOld || q.op == .mcGrant
  | 3 => q.op == .mcData
  | 4 => q.op == .add && (q.atype == 0 || q.atype == 1 || q.atype == 4)
  | 5 => (q.op == .put || q.op == .get) && gSpace q.addr == 3
  | _ => false

/-- The target range of a packet crosses a 4,096-byte boundary (R287). -/
def crosses (q : Packet) : Bool :=
  match q.op with
  | .put | .putNotify | .add | .get | .data | .mcData => decide (4096 < q.addr % 4096 + q.len + 1)
  | _ => false

/-- Cut into flits of 64 bytes, the last filled with zeros. -/
def cutFlits : Nat → List Byte → List (List Byte)
  | 0, _ => []
  | n + 1, bs => (bs.take 64 ++ List.replicate (64 - min 64 bs.length) 0) :: cutFlits n (bs.drop 64)

/-- A packet as a link sends it: an ESF RED ADD in its wire form (R364). -/
def wirePacket (q : Packet) : Packet :=
  if q.op = .add && q.cls = clRed && q.atype = 4 then
    let w := wireEnc q.data
    { q with data := w, len := w.length - 1, poison := if q.poison.any id then List.replicate ((32 + w.length + 63) / 64) true else [] }
  else q

/-- The data units of a packet (R306). -/
def unitsOf (q : Packet) : List DataUnit :=
  let w := wirePacket q
  let n := flits w
  (cutFlits n (headerBytes w ++ w.data)).zipIdx.map fun p =>
    { vc := vcOf q, sop := p.2 == 0, eop := p.2 + 1 == n, poison := (w.poison[p.2]?).getD false, valid := true, flit := p.1 }

/-- Flits taken from the dedicated space of a VC and from the shared pool (R311). -/
def charge (v n : Nat) (cs : List Nat) : Nat × Nat :=
  let ded := min n ((cs[v]?).getD 0)
  (ded, n - ded)

/-- A packet may start (R306): it is the first of its VC, credits cover it, and the retry buffer has room. -/
def mayStart (s : LinkSt) (q : Packet) : Bool :=
  let n := flits (wirePacket q)
  decide (n ≤ credits (vcOf q) s) && decide (s.retry.length + (s.units.length + n + 63) / 64 ≤ 128)

/-- The first packet of each VC in a transmit buffer. -/
def heads : List TxEnt → List Nat → List TxEnt
  | [], _ => []
  | e :: es, seen => if seen.contains (vcOf e.pkt) then heads es seen else e :: heads es (vcOf e.pkt :: seen)

/-- PACKET_TRANSMIT (R306, R311): the port starts a packet. -/
def packetTransmit (l : Nat) (d : Dev) : Dev :=
  let s := getLink l d
  if !linkUp l d then d
  else match ((heads s.tx []).find? fun e => mayStart s e.pkt) with
    | none => d
    | some e =>
      let q := e.pkt
      let us := unitsOf q
      let c := charge (vcOf q) us.length s.credit
      setLink l { s with tx := s.tx.erase e, units := s.units ++ us,
                         credit := modNth (· - c.2) 12 (modNth (· - c.1) (vcOf q) s.credit) } d

/-! ### Blocks (R306, R307) -/

/-- The bytes that CRC-32C covers: the data units and bits [458:0] of the control unit. -/
def blockBytes (b : Block) : List Byte :=
  (b.units.flatMap fun u =>
    toBytes 2 (u.vc + 16 * b2n u.sop + 32 * b2n u.eop + 64 * b2n u.poison + 128 * b2n u.valid) ++ u.flit) ++
  (let t := b.tick.getD ⟨0, 0, 0, false, 0, 0⟩
   toBytes 58 (b.bseq + b.ack * 2 ^ 16 + b2n b.retry * 2 ^ 32 + b.rseq * 2 ^ 33 +
     ofBytes (b.credit.map (BitVec.ofNat 8 ·)) * 2 ^ 64 + b.shared * 2 ^ 160 + b2n b.tick.isSome * 2 ^ 172 + t.snum * 2 ^ 173 +
     t.slen * 2 ^ 237 + t.phase * 2 ^ 252 + b2n t.holdExp * 2 ^ 262 + t.lead * 2 ^ 263 + t.announce * 2 ^ 267 +
     b.arrive * 2 ^ 331 + b.holdb * 2 ^ 395))

def sealBlock (b : Block) : Block := { b with crc := Config.blockCrc (blockBytes b) }

def rootDev (d : Dev) : Nat := rdF .tck TCK_ROOT 0 15 d

/-- The parent's tick link that R195 gives a device: over the minus side when the ring distance down to the root is at most half. -/
def autoParent (dv : Nat) (d : Dev) : Option Nat :=
  ((List.range 5).find? fun n => coordOf dv n != coordOf (rootDev d) n).map fun n =>
    let len := axisLen n d
    let δ := (coordOf dv n + len - coordOf (rootDev d) n) % len
    ((bundle n (if 2 * δ ≤ len then 1 else 0)).head?).getD 0

/-- The parent's tick link (R195, TCK_PARENT); the root has none. -/
def parentLink (d : Dev) : Option Nat :=
  if rdBit .tck TCK_CFG 0 d then none
  else match (if rdBit .tck TCK_PARENT 8 d then autoParent (ownDev d) d else none) with
    | some l => some l
    | none => some (rdF .tck TCK_PARENT 0 5 d)

/-- The tick links that lead to children: those over which a neighbour finds its parent here (R195, R196). -/
def childLinks (d : Dev) : List Nat :=
  (List.range 32).filter fun l =>
    isTickLink l && linkPresent l d && neighbourDev l d != ownDev d && neighbourDev l d != rootDev d &&
      autoParent (neighbourDev l d) d == some (partner l)

/-- A device without a bound core of a context counts as arrived there: its arrival stands once every child's does (R206)
(DEDUCED, log entry 73). -/
def idleJoined (ctx : Nat) (d : Dev) : Bool :=
  !(d.binds.any fun p => p.1 / 1024 == ctx && p.2 != 0) &&
    (childLinks d).all fun l => d.tck.seams.any fun s => s.1 == ctx && s.2.kids.any fun k => k.1 == l

/-- The contexts whose arrival goes up, as a 64-bit mask, and those whose arrival is held (R206, R268). -/
def arriveMask (d : Dev) : Nat :=
  ((List.range 64).filter fun x => d.tck.seams.any (fun s => s.1 % 64 == x && s.2.sent) || idleJoined x d).foldl (fun m x => m + 2 ^ x) 0
def holdMask (d : Dev) : Nat :=
  ((d.tck.seams.filter fun s => s.2.sent && (s.2.held || s.2.kids.any (·.2))).map fun s => 2 ^ (s.1 % 64)).sum

/-- BLOCK_SEND (R306, R307): the next 64 data units with their control unit. Blocks to be replayed go first, once the block that was being built when
the replay was asked for has gone; that one is replayed after them. -/
def blockSend (l : Nat) (d : Dev) : Dev :=
  let s := getLink l d
  let ack := (s.expect + 65535) % 65536
  if !linkUp l d then d
  else match (if s.finish && decide (s.retry.length < 128) then [] else s.replay) with
    | b :: rest =>
      let b := sealBlock { b with ack := ack, retry := s.wantRetry, rseq := s.expect, replay := true }
      let d := bump (lnkBlk l) LNK_RETRY 1 (setLink l { s with replay := rest, finish := false } d)
      { d with out := .block l b :: d.out }
    | [] =>
      if 128 ≤ s.retry.length then d
      else
        let us := s.units.take 64
        let up := parentLink d == some l
        let b := sealBlock { units := us ++ List.replicate (64 - us.length) {}, bseq := s.bseq, ack := ack, retry := s.wantRetry,
                             rseq := s.expect, credit := (s.freed.take 12).map (min 255), shared := min 4095 ((s.freed[12]?).getD 0),
                             tick := s.tick, arrive := if up then arriveMask d else 0, holdb := if up then holdMask d else 0 }
        let d := setLink l { s with units := s.units.drop 64, bseq := (s.bseq + 1) % 65536, retry := s.retry ++ [b], tick := none,
                                    replay := if s.finish then s.replay ++ [b] else [], finish := false,
                                    freed := (s.freed.take 12).map (fun n => n - min 255 n) ++ [(s.freed[12]?).getD 0 - min 4095 ((s.freed[12]?).getD 0)] } d
        { d with out := .block l b :: d.out }

/-! ### States (R325, R326) -/

/-- The state of a link changes. LINKS_READY is set when every link is UP, DOWN or MISWIRED, or absent (R428). -/
def setLinkState (l n : Nat) (d : Dev) : Dev :=
  if linkState l d = n then d
  else
    let b := lnkBlk l
    let d := setEvent b 8 (wrF b LNK_STATE 0 3 n d)
    let d := if n = 4 then bumpSat b LNK_STATE 16 16 d else d
    if (List.range 32).all (fun k => [0, 1, 3, 6].contains (linkState k d)) then wrBit .rst RST_BOOT 12 true d else d

/-- Packets reserved in the transmit buffer and not yet sent are reserved again, in their original order, on the links of the same bundle
(R326) (DEDUCED, log entry 55). -/
def reReserve (l : Nat) (d : Dev) : Dev :=
  let s := getLink l d
  let off (m : MeshPkt) : Bool := decide (m.goal = .link l)
  let place (e : TxEnt) : Resv :=
    { pkt := e.pkt, hop := some (linkAxis l, linkSide l)
      entry := (((d.net.mesh ++ d.net.hold).find? fun m => off m && decide (m.space = some e)).map (·.at_)).getD (lnkAt l) }
  let d := { d with net := { d.net with resv := (s.tx ++ s.coming).map place ++ d.net.resv, mesh := d.net.mesh.filter (!off ·),
                                        hold := d.net.hold.filter (!off ·) } }
  setLink l { s with tx := [], coming := [] } d

/-- A parity mismatch at a block (R55). A link port that enters its safe state reserves again what it has not yet sent (R330). -/
def parityFound (b : Blk) (o : Nat) (d : Dev) : Dev :=
  let d' := parityFail b o d
  match b with
  | .lnk k i => if isSafe b d then d' else reReserve (8 * k + i) d'
  | _ => d'

/-- Packets among blocks and units not yet acknowledged. -/
def packetsIn (us : List DataUnit) : Nat :=
  let vs := us.filter (·.valid)
  (vs.filter (·.sop)).length + (match vs.head? with | some u => b2n (!u.sop) | none => 0)

/-- Entry to DOWN, FENCED or MISWIRED (R326): the retry buffer and what was being received are discarded. -/
def loseLink (l : Nat) (d : Dev) : Dev :=
  let s := getLink l d
  let lost := packetsIn (s.retry.flatMap (·.units) ++ s.units)
  let d := bump (lnkBlk l) LNK_LOST lost d
  let clear (r : Resv) : Resv := if r.from_.any (fun f => f.1 == l) then { r with from_ := none } else r
  let d := { d with net := { d.net with resv := d.net.resv.map clear } }
  setLink l { s with units := [], bseq := 0, retry := [], replay := [], finish := false, expect := 0, wantRetry := false, asked := 0, assembling := [],
                     credit := [], charged := [], freed := [] } d

/-- Holdover ends (R198). -/
def holdoverEnds (d : Dev) : Dev :=
  { d with tck := { d.tck with holdover := false, good := 0, missed := 0, expired := false, syncLost := false } }

/-- The tick message as it leaves now (R196, R306): the seams announced in it complete at its number plus `lead`. When in the interval the
control unit leaves is timing, and PHASE is free (DESIGN CHOICE, log entry 70). -/
def tickOut (lead announce : Nat) (d : Dev) : Tick :=
  { snum := stitchNum d, slen := rdF .tck TCK_LEN 0 15 d, phase := freeNow d % 1024, holdExp := d.tck.expired, lead := lead, announce := announce }

/-- A tick goes out on each link to a child that is UP. -/
def sendTicks (lead announce : Nat) (ls : List Nat) (d : Dev) : Dev :=
  ls.foldl (fun d l => if linkUp l d then freeNext (modLink l (fun s => { s with tick := some (tickOut lead announce d) }) d) else d) d

/-- The tick link of the parent has left UP: holdover (R198). -/
def enterHoldover (d : Dev) : Dev :=
  if d.tck.holdover then d
  else setEvent .tck 8 (wrF .tck TCK_HOLD 0 14 0 { d with tck := { d.tck with holdover := true, good := 0 } })

/-- The loss of a link that carries a scheduled flow of a bound context is a trigger of its refit (R267). -/
def linkTrigger (l : Nat) (d : Dev) : Dev :=
  { d with jobs := d.jobs.map fun j =>
      if j.phase == 1 && j.flows.any (fun f => (getFlow f.2 d).link == some l) then { j with trig := putBits j.trig 1 1 1 } else j }

/-- A link leaves UP for a state. -/
def linkLeaves (l n : Nat) (d : Dev) : Dev :=
  let was := linkUp l d
  let d := setLinkState l n d
  let d := if was then linkTrigger l (reReserve l d) else d
  if was && parentLink d == some l && !rdBit .tck TCK_CFG 0 d then enterHoldover d else d

/-- A link goes DOWN, FENCED or MISWIRED: LINK_DOWN is latched and its traffic is lost. -/
def linkDown (l n : Nat) (d : Dev) : Dev :=
  loseLink l (latch (lnkBlk l) cLinkDown (linkLeaves l n d))

/-- A link that is DOWN begins to train (R325): it is present, TRAIN_EN is set and the device has its number. -/
def startTraining (l : Nat) (d : Dev) : Dev :=
  if linkPresent l d && devValid d && !isRetired (lnkAt l) d && rdBit (lnkBlk l) LNK_CFG 0 d && (linkState l d == 1 || linkState l d == 5 || linkState l d == 6)
  then setLinkState l 2 d else d

/-- A write to LNK_CTL.RETRAIN (R325). -/
def retrainAct (l : Nat) (d : Dev) : Dev := if linkUp l d then linkLeaves l 4 d else d

/-- LINK_TRAINED (R303, R325, R326): the peer check; with the same peer, the retry buffer is replayed. -/
def linkTrained (l peerDev peerLink peerTorus delay : Nat) (d : Dev) : Dev :=
  let b := lnkBlk l
  if !(linkState l d == 2 || linkState l d == 4) || !devValid d || !linkPresent l d || !rdBit b LNK_CFG 0 d then d
  else
    let d := wr b LNK_PEER (peerDev % 32768 + peerLink % 32 * 65536 + 2 ^ 31) d
    if peerDev = neighbourDev l d && peerLink = partner l && peerTorus = rdF .glb GLB_TORUS 0 10 d then
      let s := getLink l d
      let s := if s.credit.isEmpty then { s with credit := fullCredit, charged := List.replicate 13 0, freed := List.replicate 13 0 }
               else { s with replay := s.retry }
      let d := setLinkState l 3 (setLink l { s with delay := delay, asked := 0 } d)
      if (childLinks d).contains l then sendTicks (rdF .tck TCK_SEAM 0 4 d) 0 [l] d else d
    else linkDown l 6 d

/-- LANE_LOCK_LOSS (R325): a lane has lost codeword lock for 1 µs. -/
def laneLockLoss (l : Nat) (d : Dev) : Dev := if linkUp l d then linkLeaves l 4 d else d

/-- RETRAIN_TIMEOUT (R325). -/
def retrainTimeout (l : Nat) (d : Dev) : Dev := if linkState l d = 4 then setLinkState l 2 d else d

/-- TRAINING_TIMEOUT (R325). -/
def trainingTimeout (l : Nat) (d : Dev) : Dev := if linkState l d = 2 then linkDown l 1 d else d

/-! ### Violations (R322 to R324) -/

def rUnknownFlow : Nat := 0x0010
def rWindowOverrun : Nat := 0x0011
def rSeqOutOfWindow : Nat := 0x0012
def rMalformed : Nat := 0x0013
def rUnknownGroup : Nat := 0x0014
def rQuarantined : Nat := 0x0015

/-- The core cycle within the Stitch: mesh cycles at 1,900 MHz turned into cycles of the committed clock (R487). -/
def coreCycle (d : Dev) : Nat := d.cycle * rdF .glb GLB_CLK_COMMIT 0 11 d / 1900

/-- DST_FLOW of a packet is bound to the packet's own peer and flow. -/
def flowKnown (q : Packet) (d : Dev) : Bool :=
  flowBound q.dstFlow d && peerDev q.dstFlow d == q.srcDev && peerFlow q.dstFlow d == q.srcFlow

/-- SEQ lies within the window that opens at LOW (R317). -/
def seqInWindow (q : Packet) (d : Dev) : Bool :=
  decide ((q.seq + 65536 - (getFlow q.dstFlow d).low) % 65536 < winPkts q.dstFlow d)

/-- An entry of the violation log (R328). -/
def violationLog (l reason : Nat) (q : Packet) (nacked : Bool) (d : Dev) : Dev :=
  let b := lnkBlk l
  let e := rdF b LNK_VLOG_HEAD 0 6 d
  let h := headerBytes q
  let ws := [reason + vcOf q * 65536 + b2n nacked * 2 ^ 20, stitchNum d % 2 ^ 32, stitchNum d / 2 ^ 32] ++
    (List.range 8).map (fun i => ofBytes ((h.drop (4 * i)).take 4)) ++ [coreCycle d % 2 ^ 24]
  let d := ws.zipIdx.foldl (fun d w => wrB b LNK_VLOG (e * 16 + w.2) w.1 d) d
  setEvent b 10 (wrF b LNK_VLOG_HEAD 0 6 (e + 1) (bumpSat b LNK_VLOG_HEAD 8 24 d))

/-- Multicast operations are checked against their group (R322). -/
def isMc : Op → Bool
  | .mcReserve | .mcGrant | .mcData => true
  | _ => false

/-- The group of a multicast packet: its number and source. -/
def findGroup (n src : Nat) (d : Dev) : Option GroupSt := d.net.groups.find? fun g => g.n == n && g.source == src

/-- The member entry of this device in a group. -/
def ownMember (g : GroupSt) (d : Dev) : Option (Nat × Nat × Nat) := g.members.find? fun m => m.1 == ownDev d

/-- The flow of this device that a packet is on: none for one that only crosses the device (R322). -/
def violFlow (q : Packet) (d : Dev) : Option Nat :=
  if q.op = .mcReserve || q.op = .mcData then ((findGroup q.aux0 q.srcDev d).bind (ownMember · d)).map (·.2.2)
  else if packetDev q = ownDev d then some q.dstFlow else none

/-- The count of a flow, and its quarantine (R324). -/
def countFlow (b : Blk) (f : Nat) (d : Dev) : Dev :=
  if !flowBound f d then d
  else
    let d := modFlow f (fun x => { x with viol := x.viol + 1 }) d
    if !isSafe b d && !flowQuar f d && decide (rdF b LNK_VCFG 0 12 d ≤ (getFlow f d).viol) then
      setEvent .fab 8 (wrB .fab FAB_FLOW f (putBits (rdB .fab FAB_FLOW f d) 7 1 1) d)
    else d

/-- The counts of a window and what reaching a threshold does (R324); in the safe state no new action is taken (R330). -/
def countViolation (l : Nat) (q : Packet) (d : Dev) : Dev :=
  let b := lnkBlk l
  let d := bumpSat b LNK_VWIN 0 16 (bump b LNK_VCNT 1 d)
  let d := match violFlow q d with
    | some f => countFlow b f d
    | none => d
  if !isSafe b d && [1, 2, 3, 4, 6].contains (linkState l d) && decide (rdF b LNK_VCFG 12 12 d ≤ rdF b LNK_VWIN 0 16 d) then
    linkDown l 5 (wrBit b R_CTRL 1 true d)
  else d

/-- A packet that is itself a response (R309). -/
def isResponse : Op → Bool
  | .ack | .nack | .data | .casOld | .mcGrant => true
  | _ => false

/-- A violating packet is answered (R323): NACK, log, counts and the event that R322 names (DEDUCED, log entry 53). -/
def violate (l reason : Nat) (q : Packet) (d : Dev) : Dev :=
  let b := lnkBlk l
  let nack := !isResponse q.op && inTorus q.srcDev d && !((q.poison[0]?).getD false)
  let d := if nack then
      let d := if isRequest q.op && flowKnown q d && seqInWindow q d then flowAnswered q d else d
      respondTo (lnkAt l) q .nack reason 0 [] [] d
    else d
  let d := if reason = rWindowOverrun || reason = rSeqOutOfWindow then
      bump .fab FAB_VIOL 1 (latch .fab cWindowViolation (latch b cWindowViolation d))
    else if reason = rQuarantined then d
    else latch b cProtocolViolation d
  let d := if reason = rQuarantined then d else violationLog l reason q nack d
  countViolation l q d

/-- VIOLATION_WINDOW_END (R324). The window of a flow's count ends with that of any link (DESIGN CHOICE, log entry 146). -/
def violationWindowEnd (l : Nat) (d : Dev) : Dev :=
  let d := wrF (lnkBlk l) LNK_VWIN 0 16 0 d
  { d with net := { d.net with flows := (d.net.flows.foldl (fun m p => Sparse.set flowInit m p.1 { p.2 with viol := 0 }) d.net.flows) } }

/-- A write to FAB_FLOW_CTL.RELEASE (R324, R329). -/
def flowReleaseAct (f : Nat) (d : Dev) : Dev :=
  modFlow f (fun x => { x with viol := 0 }) (wrB .fab FAB_FLOW f (putBits (rdB .fab FAB_FLOW f d) 7 1 0) d)

/-! ### Receiving (R306, R307, R311, R317, R322) -/

/-- The packet that complete units spell, restored from its wire form, with its MALFORMED_HEADER check (R322, R366). -/
def receivePacket (us : List DataUnit) : Packet × Bool :=
  let q := packetOf (us.flatMap (·.flit)) (us.map (·.poison))
  let vcBad := us.any fun u => u.vc != vcOf q
  let sizeBad := us.length != (32 + payloadLen q.op q.len + 63) / 64
  let opBad := match q.op with | .reserved _ => true | _ => false
  let basic := q.bad || opBad || !opInClass q || vcBad || sizeBad || (q.op == .add && decide (4 < q.atype))
  if q.op = .add && q.cls = clRed && q.atype = 4 && !basic then
    match wireDec q.data with
    | some x =>
      let p := { q with data := x, len := x.length - 1,
                        poison := if q.poison.any id then List.replicate ((32 + x.length + 63) / 64) true else [] }
      (p, crosses p)
    | none => (q, true)
  else (q, basic || crosses q)

/-- Requests of a flow that have been accepted and not answered. -/
def unanswered (f : Nat) (d : Dev) : List Packet :=
  ((d.net.mesh ++ d.net.hold).map (·.a) ++ d.net.arrived).flatMap fun a =>
    if a.link.isSome && isRequest a.pkt.op then
      (if a.pkt.dstFlow == f then [a.pkt] else []) ++ (a.pkt.merged.filter fun m => mergedFlow m d == some f).map fun _ => a.pkt
    else []

/-- Address and alignment of an operation at its target (R287). -/
def opAddrOk (q : Packet) : Bool :=
  let a := q.addr
  let sp := gSpace a
  match q.op with
  | .put | .get => sp ≤ 2 || (sp == 3 && (q.len == 3 || q.len == 7) && a % (q.len + 1) == 0) || (sp == 4 && q.len == 7 && a % 8 == 0)
  | .add =>
    let n := atypeSize q.atype
    sp ≤ 2 && decide (q.atype ≤ 4) && (q.len + 1) % n == 0 && (if q.atype = 4 then a % 8 == 0 else a % n == 0)
  | .cas => (sp ≤ 2 || sp == 4) && a % 8 == 0
  | .flagAdd => sp == 4 && a % 8 == 0
  | .putNotify => decide (sp ≤ 2)
  | _ => true

/-- One more request stays within the window of a flow (R317). -/
def windowFull (f n : Nat) (d : Dev) : Bool :=
  let out := unanswered f d
  decide (winPkts f d < out.length + 1) || decide (winBytes f d < (out.map reqBytes).sum + n)

/-- The first check of R322 that a multicast request fails at a member `m` (DEDUCED, log entry 58). -/
def memberCheck (m : Nat × Nat × Nat) (q : Packet) (d : Dev) : Option Nat :=
  if !flowBound m.2.2 d || peerDev m.2.2 d != q.srcDev then some rUnknownFlow
  else if flowQuar m.2.2 d then some rQuarantined
  else if windowFull m.2.2 (reqBytes q) d then some rWindowOverrun
  else none

/-- The first check of R322 at the destination that fails. -/
def destCheck (q : Packet) (d : Dev) : Option Nat :=
  if q.op == .mcGrant && (findGroup q.aux0 (ownDev d) d).isNone then some rUnknownGroup
  else if !flowKnown q d then some rUnknownFlow
  else if flowQuar q.dstFlow d then some rQuarantined
  else if isRequest q.op && !isMc q.op then
    if !seqInWindow q d then some rSeqOutOfWindow
    else if windowFull q.dstFlow (reqBytes q) d then some rWindowOverrun
    else if !opAddrOk q || !offOk true (gSpace q.addr) (gOff q.addr) d then some nkAddress
    else none
  else none

/-- The next hop of the tree from this device toward a member (R319): axis, side and subclass. -/
def treeHop (dst : Nat) (d : Dev) : Option (Nat × Nat × Nat) :=
  (axisTo dst d).map fun n =>
    let len := axisLen n d
    let c := coordOf (ownDev d) n
    let side := if 2 * ((coordOf dst n + len - c) % len) ≤ len then 0 else 1
    (n, side, subOn n side dst c)

/-- A device lies on the tree's way from the source to a member (R313, R319): coordinates below some axis are the member's, those
above it the source's, and the coordinate on it lies between. -/
def onWay (src dst own : Nat) (d : Dev) : Bool :=
  (List.range 5).any fun n =>
    (List.range n).all (fun i => coordOf own i == coordOf dst i) &&
    ((List.range 5).filter (n < ·)).all (fun i => coordOf own i == coordOf src i) &&
    (let len := axisLen n d
     let δ := (coordOf dst n + len - coordOf src n) % len
     let e := (coordOf own n + len - coordOf src n) % len
     if 2 * δ ≤ len then decide (e ≤ δ) else e == 0 || decide (δ ≤ e))

/-- One copy of a multicast packet for each next hop toward members `ms` (R319, R320). The copy takes SUB 0 while any of its members
lies beyond the dateline. -/
def branch (q : Packet) (entry : Nat) (from_ : Option (Nat × Nat × Nat)) (ms : List Nat) (d : Dev) : Dev :=
  let hops := ms.filterMap fun m => treeHop m d
  let ways := (hops.map fun h => (h.1, h.2.1)).eraseDups
  let mk (w : (Nat × Nat) × Nat) : Resv :=
    let crossing := hops.any fun h => (h.1, h.2.1) == w.1 && h.2.2 == 0
    { pkt := { q with sub := if crossing then 0 else 1 }, from_ := if w.2 + 1 = ways.length then from_ else none, entry := entry, hop := some w.1 }
  { d with net := { d.net with resv := d.net.resv ++ ways.zipIdx.map mk } }

/-- Members of a group that a copy at this device still serves: those whose way leads through it. -/
def membersVia (g : GroupSt) (d : Dev) : List Nat :=
  (g.members.map (·.1)).filter fun m => m != ownDev d && onWay g.source m (ownDev d) d

/-- The router that serves a multicast packet on this device: data go to the port of the window's memory (R278), a reservation to FAB. -/
def mcastPos (g : GroupSt) (q : Packet) (entry : Nat) (d : Dev) : Nat :=
  match (if q.op = .mcData then g.members.find? (fun m => m.1 == ownDev d) else none) with
  | some m => targetPos g.ctx entry (m.2.1 + q.addr % 2 ^ 46) d
  | none => mgmtPos

/-- A packet has been received whole over a link. -/
def deliver (l : Nat) (us : List DataUnit) (d : Dev) : Dev :=
  let r := receivePacket us
  let q := r.1
  let n := us.length
  let v := (us.head?.map (·.vc)).getD 0
  let s := getLink l d
  let c := charge v n ((List.range 13).map fun i => (fullCredit[i]?).getD 0 - (s.charged[i]?).getD 0)
  let d := setLink l { s with charged := modNth (· + c.2) 12 (modNth (· + c.1) v s.charged) } d
  let held := some (l, c.1, c.2)
  let own (d : Dev) : Dev :=
    let d := freeCharge held v d
    match destCheck q d with
    | some reason => violate l reason q d
    | none =>
      let a : Arrival := { pkt := q, link := some l }
      let e := lnkAt l
      let t := if q.cls = clRsp then (match d.net.reqs.find? fun x => x.flow == some q.dstFlow && x.seq == q.seq with | some x => issuerPos x.by_ | none => e)
               else targetPos (flowCtx q.dstFlow d) e (flowAddr (flowCtx q.dstFlow d) q.addr) d
      inject { a := a, at_ := e, dst := t, goal := .unit, bank := 0 } d
  if r.2 then violate l rMalformed q (freeCharge held v d)
  else if q.op = .mcReserve || q.op = .mcData then
    match findGroup q.aux0 q.srcDev d with
    | none => violate l rUnknownGroup q (freeCharge held v d)
    | some g =>
      let via := membersVia g d
      let d := if via.isEmpty then freeCharge held v d else branch q (lnkAt l) held via d
      match ownMember g d with
      | some m => match memberCheck m q d with
        | some reason => violate l reason q d
        | none => inject { a := { pkt := q, link := some l }, at_ := lnkAt l, dst := mcastPos g q (lnkAt l) d, goal := .unit, bank := 0 } d
      | none => d
  else if packetDev q = ownDev d then own d
  else { d with net := { d.net with resv := d.net.resv ++ [{ pkt := q, from_ := held, entry := lnkAt l }] } }

/-- One accepted data unit: a packet is complete with its EOP. -/
def takeUnit (l : Nat) (d : Dev) (u : DataUnit) : Dev :=
  if !u.valid then d
  else
    let us := (if u.sop then [] else (getLink l d).assembling) ++ [u]
    if u.eop then deliver l us (modLink l (fun s => { s with assembling := [] }) d)
    else modLink l (fun s => { s with assembling := us }) d

/-- Blocks up to an acknowledged BSEQ leave the retry buffer. -/
def ackUpTo (ack : Nat) (bs : List Block) : List Block :=
  match bs.findIdx? fun b => b.bseq == ack with
  | some i => bs.drop (i + 1)
  | none => bs

/-- LINK_BLOCK_RECEIVE (R304, R307): accepted in order, or refused with a replay requested. `fec` counts the symbols corrected and the uncorrectable
codewords that have ended in it; `fecOk`: every codeword of the block was corrected (DEDUCED, log entry 57). -/
def linkBlockReceive (l : Nat) (b : Block) (fec : FecCount) (fecOk : Bool) (d : Dev) : Dev :=
  let k := lnkBlk l
  if !linkUp l d then d
  else
    let d := bump64 k LNK_FEC_CORR_LO fec.corrected d
    let d := bump k LNK_FEC_UNC fec.uncorr d
    let s := getLink l d
    let good := fecOk && decide (b.crc = Config.blockCrc (blockBytes b)) && b.bseq == s.expect
    if good then
      let retry := ackUpTo b.ack s.retry
      let replay := if b.retry then (retry.dropWhile fun x => x.bseq != b.rseq) else s.replay.filter fun x => retry.contains x
      let credit := (List.range 13).map fun i =>
        min ((fullCredit[i]?).getD 0) ((s.credit[i]?).getD 0 + (if i = 12 then b.shared else (b.credit[i]?).getD 0))
      let d := setLink l { s with retry := retry, replay := replay, credit := credit, expect := (s.expect + 1) % 65536, wantRetry := false, asked := 0,
                                  finish := s.finish || (b.retry && s.replay.isEmpty) } d
      b.units.foldl (takeUnit l) d
    else
      let asks := if !s.wantRetry || b.replay then s.asked + 1 else s.asked
      let d := setLink l { s with wantRetry := true, asked := asks } d
      if rdF k LNK_CFG 8 8 d ≤ asks then linkLeaves l 4 (setEvent k 9 d) else d

/-! ### The commands -/

/-- LINK_BLOCK_RECEIVE (R307). -/
def execLinkBlockReceive (l : Nat) (b : Block) (fec : FecCount) (fecOk : Bool) (s : State) := s.onDev (linkBlockReceive l b fec fecOk)
/-- PACKET_TRANSMIT (R306). -/
def execPacketTransmit (l : Nat) (s : State) := s.onDev (packetTransmit l)
/-- TX_RESERVATION (R312). -/
def execTxReservation (l : Nat) (s : State) := s.onDev (txReserve l)
/-- LINK_TRAINED (R303). -/
def execLinkTrained (l peerDev peerLink peerTorus delay : Nat) (s : State) := s.onDev (linkTrained l peerDev peerLink peerTorus delay)
/-- LANE_LOCK_LOSS (R325). -/
def execLaneLockLoss (l : Nat) (s : State) := s.onDev (laneLockLoss l)
/-- RETRAIN_TIMEOUT (R325). -/
def execRetrainTimeout (l : Nat) (s : State) := s.onDev (retrainTimeout l)
/-- TRAINING_TIMEOUT (R325). -/
def execTrainingTimeout (l : Nat) (s : State) := s.onDev (trainingTimeout l)
/-- VIOLATION_WINDOW_END (R324). -/
def execViolationWindowEnd (l : Nat) (s : State) := s.onDev (violationWindowEnd l)
/-- BLOCK_SEND (R306). -/
def execBlockSend (l : Nat) (s : State) := s.onDev (blockSend l)

end Sys2Proof.Machine
end

