-- ==== Sys2Proof/Machine/ArrayCell.lean ====
section
/-! DEFINITION. Cell arithmetic (R73 to R83), the accumulator sets (R85 to R89) and the drain forms (R90 to R93, R130 to
R132, R135 to R138). -/

namespace Sys2Proof.Machine

/-! ### Cells -/

/-- The exponent of `ulp(s)`: the code's own grid, 2^-149 for zeros and subnormals (chapter 3, cell arithmetic). -/
def ulpExp (s : Nat) : Int := max (bits s 23 8 : Int) 1 - 150

/-- A dyadic value rounded to nearest even to a whole number of `2 ^ e`. -/
def Dy.rne (x : Dy) (e : Int) : Int :=
  let n := roundAt .rne e x.m.natAbs x.e
  if x.m < 0 then -(n : Int) else n

/-- The exact value s + c of a finite pair. -/
def pairVal (s c : Nat) : Dy := (f32 s).dy.add ⟨signed 16 c, ulpExp s - 15⟩

def isSpecial (v : FVal) : Bool := match v with | .fin _ _ _ => false | _ => true
def isNan (v : FVal) : Bool := match v with | .nan => true | _ => false
def isInf (v : FVal) : Bool := match v with | .inf _ => true | _ => false

/-- R75: the pair (s, C) after a slice sum P. -/
def accumulate (s c : Nat) (p : FVal) : Nat × Nat :=
  let sv := f32 s
  if isSpecial sv || isSpecial p then (toF32 (sv.add p), 0)
  else if p.isZero then (s, c)
  else
    let v := (pairVal s c).add p.dy
    let s1 := toF32 (FVal.ofDy false v)
    if isInf (f32 s1) then (s1, 0)
    else (s1, wrap 16 ((v.add (f32 s1).dy.neg).rne (ulpExp s1 - 15)))

/-- The two BF16 parts of a finite FP32 operand (R79). -/
def splitHi (x : FVal) : FVal :=
  match x with
  | .fin n m e => let r := fmtBF16.round .trunc m e; .fin n r.1 r.2
  | v => v
def splitLo (x : FVal) : FVal :=
  match x with
  | .fin _ _ _ => fmtBF16.decode (fmtBF16.ofFVal .rne (FVal.ofDy false (x.dy.add (splitHi x).dy.neg)))
  | v => v

/-- The slice sum of one FP32 pair (R79). -/
def fp32Pair (a b : FVal) : FVal :=
  if isSpecial a || isSpecial b then a.mul b
  else (((splitHi a).mul (splitHi b)).add ((splitHi a).mul (splitLo b))).add ((splitLo a).mul (splitHi b))

/-- The +0 operand. -/
def plusZero : FVal := .fin false 0 0

/-- The product of a pair of operand values. -/
def pairProd (fp32 : Bool) (a b : FVal) : FVal := if fp32 then fp32Pair a b else a.mul b

/-- The slice sum of a cell (R74, R82): every pair of operands at one K index. A side that is not read takes +0 (R130,
R118): its products with the other side's values are taken too. -/
def sliceSum (fp32 : Bool) (a b : Option LineOps) : FVal :=
  match a, b with
  | none, none => plusZero
  | some xs, none => xs.foldl (fun s x => s.add (pairProd fp32 x.2 plusZero)) plusZero
  | none, some ys => ys.foldl (fun s y => s.add (pairProd fp32 plusZero y.2)) plusZero
  | some xs, some ys =>
    xs.foldl (fun s x => ys.foldl (fun s y => if x.1 = y.1 then s.add (pairProd fp32 x.2 y.2) else s) s) plusZero

/-- R78: an INT cell's sum, and whether it wrapped. -/
def accumInt (s : Nat) (p : Int) : Nat × Bool :=
  let v := signed 32 s + p
  (wrap 32 v, decide (v < -(2 ^ 31)) || decide (2 ^ 31 ≤ v))

def cellInit (_ : Nat) : Cell := {}
def getCell (st : AccSet) (i j : Nat) : Cell := Sparse.get cellInit st.cells (128 * i + j)
def setCell (i j : Nat) (v : Cell) (st : AccSet) : AccSet :=
  { st with cells := Sparse.set cellInit st.cells (128 * i + j) v }

/-- The operands of a line, none where the line takes +0. -/
def lineAt (ls : List (Nat × LineOps)) (i : Nat) : Option LineOps := (ls.find? fun p => p.1 == i).map (·.2)

/-- The lines that meet at cell (i, j) (R132). -/
def cellLines (quarter : Bool) (i j : Nat) : Nat × Nat :=
  if quarter then let q := 2 * (i / 64) + j / 64; (64 * q + i % 64, 64 * q + j % 64) else (i, j)

/-- Cell (i, j) takes a slice (R75, R77, R78). -/
def cellSlice (e : PipeEnt) (i j : Nat) (st : AccSet) : AccSet :=
  let ls := cellLines e.quarter i j
  let p := sliceSum e.fp32 (lineAt e.a ls.1) (lineAt e.b ls.2)
  let x := getCell st i j
  let (s0, c0) := if e.start then (0, 0) else (x.s.toNat, x.c.toNat)
  if e.int then
    let r := accumInt s0 (p.dy.m * ((2 ^ p.dy.e.toNat : Nat) : Int))
    { setCell i j { x with s := BitVec.ofNat 32 r.1, c := 0 } st with wrap := st.wrap || r.2 }
  else
    let r := accumulate s0 c0 p
    setCell i j { x with s := BitVec.ofNat 32 r.1, c := BitVec.ofNat 16 r.2 } st

/-- Rows of the tile take a slice, over every column. -/
def rowsSlice (e : PipeEnt) (rows : List Nat) (st : AccSet) : AccSet :=
  rows.foldl (fun st i => (List.range 128).foldl (fun st j => cellSlice e i j st) st) st

/-! ### Repair and skew groups (R99, R121) -/

/-- Physical rows or columns in use, in order: logical line i is the (i + 1)-th of them. -/
def remaining (ex : List Nat) : List Nat := ((List.range 132).filter fun p => !ex.contains p).take 128

/-- The skew group of a physical row. -/
def skewGroup (p : Nat) : Nat := if p < 68 then p / 17 else 4 + (p - 68) / 16

/-- The logical rows of a skew group. -/
def groupRows (ex : List Nat) (g : Nat) : List Nat :=
  (List.range 128).filter fun i => match (remaining ex)[i]? with | some p => skewGroup p == g | none => false

/-- The logical line of a physical one. -/
def logicalLine (ex : List Nat) (p : Nat) : Option Nat :=
  (List.range 128).find? fun i => (remaining ex)[i]? == some p

/-! ### Sets -/

def getSet (a : ArrSt) (n : Nat) : AccSet := if n = 0 then a.set0 else a.set1
def putSet (n : Nat) (s : AccSet) (a : ArrSt) : ArrSt := if n = 0 then { a with set0 := s } else { a with set1 := s }
def modSet (n : Nat) (f : AccSet → AccSet) (a : ArrSt) : ArrSt := putSet n (f (getSet a n)) a

/-- A set with its sums and compensations gone and its sticky bits kept. -/
def clearCells (s : AccSet) : List (Nat × Cell) :=
  (s.cells.map fun p => (p.1, { p.2 with s := 0, c := 0 })).filter fun p => p.2.arith || p.2.shift

/-- EMPTY (R85, R89). -/
def emptySet (s : AccSet) : AccSet := { s with cells := clearCells s, tag := 0, wrap := false, bad := [] }

/-- A set released from quarantine (R98, R110). -/
def releaseSet (_ : AccSet) : AccSet := {}

/-- A START pass's set as its first slice is presented: sums zero, WRAP 0, the product's tag (R77) (DEDUCED, log entry 35). -/
def startSet (int : Bool) (s : AccSet) : AccSet := { emptySet s with tag := if int then 2 else 1 }

/-- The cells whose sticky bits are set, as physical row and column in row-then-column order (R97). -/
def failing (a : ArrSt) (s : AccSet) : List (Nat × Nat × Cell) :=
  (s.cells.filter fun p => p.2.arith || p.2.shift).map fun p =>
    (((remaining a.exRows)[p.1 / 128]?).getD 0, ((remaining a.exCols)[p.1 % 128]?).getD 0, p.2)

/-! ### Drain conversion (R90 to R93, R135 to R138) -/

/-- The array position of the element at index `x` of a drained tile (R90, R132) (DEDUCED, log entry 32). -/
def elemPos (quarter : Bool) (x : Nat) : Nat × Nat :=
  if quarter then
    let q := x / 4096
    (64 * (q / 2) + x % 4096 / 64, 64 * (q % 2) + x % 64)
  else (x / 128, x % 128)

/-- The element lies inside the logical extent (R130, R132). -/
def inExtent (quarter : Bool) (rows cols x : Nat) : Bool :=
  if quarter then decide (x % 4096 / 64 < rows) && decide (x % 64 < cols)
  else decide (x / 128 < rows) && decide (x % 128 < cols)

/-- The value that a drain reads at an element: s + c, or the sum of an INT set; +0 outside the extent and for an EMPTY
set. An exact zero left by a sum that is not zero keeps the sign of s, which R92 does not state (DESIGN CHOICE, log entry 149). -/
def drainVal (st : AccSet) (quarter : Bool) (rows cols x : Nat) : FVal :=
  if st.tag = 0 || !inExtent quarter rows cols x then plusZero
  else
    let cl := getCell st (elemPos quarter x).1 (elemPos quarter x).2
    if st.tag = 2 then FVal.ofDy false ⟨signed 32 cl.s.toNat, 0⟩
    else
      let sv := f32 cl.s.toNat
      if isSpecial sv then sv else FVal.ofDy sv.isNeg (pairVal cl.s.toNat cl.c.toNat)

/-- The element formats of the narrow drain forms (R90). -/
def elemForm : Nat → ElemForm
  | 0x0 => .f32 | 0x3 => .bf16 | 0x4 => .fp16 | 0x5 => .e4m3 | 0x6 => .e5m2 | _ => .fp4

/-- The element format and emax code of the MX forms. -/
def mxForm : Nat → Option (FloatFmt × Nat)
  | 0x7 => some (fmtE4M3, 0) | 0x8 => some (fmtE5M2, 1) | 0x9 => some (fmtE2M1, 2) | _ => none

/-- The bytes of a tile in each form (R90). -/
def formSize : Nat → Nat
  | 0x0 => 65536 | 0x1 => 98304 | 0x2 => 65536 | 0x3 => 32768 | 0x4 => 32768 | 0x5 => 16384 | 0x6 => 16384
  | 0x7 => 16896 | 0x8 => 16896 | 0x9 => 8704 | _ => 8192

/-- The lane that converts the element at an array position, and which of the lane's draws it takes (R93, R90). -/
def elemLane (p : Nat × Nat) : Nat := 128 * (p.1 % 2) + p.2
def elemDraw (p : Nat × Nat) : Nat := p.1 / 2

/-- The draws that a drain converts with: none, or those of the lanes. -/
def elemRnd (stoch : Bool) (x : CoreSt) (p : Nat × Nat) : Rnd :=
  if stoch then .stoch (draw x (elemLane p) (elemDraw p) % 65536) else .rne

/-- The MX block of an element (R91, R132): its number in the order of the stored scales, and the members of block `b`. -/
def blockElems (quarter colblk : Bool) (b : Nat) : List Nat :=
  if !colblk then (List.range 32).map fun k => 32 * b + k
  else if quarter then
    (List.range 32).map fun k => 4096 * (b / 128) + 64 * (32 * (b % 2) + k) + b % 128 / 2
  else (List.range 32).map fun k => 128 * (32 * (b % 4) + k) + b / 4

def blockOf (quarter colblk : Bool) (x : Nat) : Nat :=
  if !colblk then x / 32
  else if quarter then 128 * (x / 4096) + 2 * (x % 64) + x % 4096 / 64 / 32
  else 4 * (x % 128) + x / 128 / 32

/-- Half bytes packed two to a byte, the lower index in bits [3:0]. -/
def packNibbles : List (Nat × Bool) → List (Byte × Bool)
  | a :: b :: t => (BitVec.ofNat 8 (a.1 % 16 + 16 * (b.1 % 16)), a.2 || b.2) :: packNibbles t
  | [a] => [(BitVec.ofNat 8 (a.1 % 16), a.2)]
  | [] => []

/-- A code of `n` bytes, poisoned or not. -/
def codeBytes (n : Nat) (v : Nat × Bool) : List (Byte × Bool) := (toBytes n v.1).map fun b => (b, v.2)

/-- Everything a drain's conversion depends on. -/
structure DrainEnv where
  set : AccSet
  form : Nat
  toAcc : Bool
  int : Bool
  quarter : Bool
  colblk : Bool
  rows : Nat
  cols : Nat
  sat4 : Bool
  sat5 : Bool
  stoch : Bool
  /-- the tracker exponent that APPLY divides by, when it acts -/
  exp : Option Int

/-- The value of an element as the form sees it: with APPLY, over 2^E (R137). -/
def DrainEnv.val (e : DrainEnv) (x : Nat) : FVal :=
  let v := drainVal e.set e.quarter e.rows e.cols x
  match e.exp with
  | some k => if e.form = 0x3 || e.form = 0x4 || e.form = 0x5 || e.form = 0x6 || e.form = 0xA then v.scale (-k) else v
  | none => v

/-- The element was loaded from poisoned bytes. -/
def DrainEnv.poisoned (e : DrainEnv) (x : Nat) : Bool :=
  inExtent e.quarter e.rows e.cols x && e.set.tag != 0 &&
    e.set.bad.contains (128 * (elemPos e.quarter x).1 + (elemPos e.quarter x).2)

/-- The six bytes of an element in RAW form: (s, C), or the sum and WRAP of an INT set in the accumulator store (R90, R131). -/
def DrainEnv.rawCode (e : DrainEnv) (x : Nat) : Nat :=
  if e.set.tag = 0 || !inExtent e.quarter e.rows e.cols x then 0
  else
    let cl := getCell e.set (elemPos e.quarter x).1 (elemPos e.quarter x).2
    if e.toAcc && e.int then cl.s.toNat + 2 ^ 32 * b2n e.set.wrap
    else cl.s.toNat + 2 ^ 32 * cl.c.toNat

/-- The scales of an MX tile, one for each block in stored order (R138). -/
def DrainEnv.scales (e : DrainEnv) (emax : Nat) : List (Nat × Bool) :=
  (List.range 512).map fun b =>
    let es := blockElems e.quarter e.colblk b
    (mxScale (emaxOf emax) (es.map e.val), es.any e.poisoned)

/-- The bytes that a drain writes (R90 to R93, R131). -/
def DrainEnv.bytes (e : DrainEnv) (x : CoreSt) : List (Byte × Bool) :=
  let xs := List.range 16384
  if e.form = 0x1 then xs.flatMap fun i => codeBytes 6 (e.rawCode i, e.poisoned i)
  else if e.form = 0x2 then xs.flatMap fun i => codeBytes 4 (e.rawCode i % 2 ^ 32, e.poisoned i)
  else match mxForm e.form with
    | some (f, k) =>
      let sc := e.scales k
      let el := xs.map fun i =>
        let b := blockOf e.quarter e.colblk i
        let s := (sc[b]?).getD (0, false)
        let code := if s.1 = 0xFF then 0 else mxElem f (elemRnd e.stoch x (elemPos e.quarter i)) s.1 (e.val i)
        (code, s.2)
      (if e.form = 0x9 then packNibbles el else el.flatMap (codeBytes 1)) ++ sc.flatMap (codeBytes 1)
    | none =>
      let f := elemForm e.form
      let el := xs.map fun i =>
        (convElem f e.sat4 e.sat5 (elemRnd e.stoch x (elemPos e.quarter i)) (e.val i), e.poisoned i)
      match f with
      | .f32 => el.flatMap (codeBytes 4)
      | .bf16 | .fp16 => el.flatMap (codeBytes 2)
      | .e4m3 | .e5m2 => el.flatMap (codeBytes 1)
      | .fp4 => packNibbles el

/-- Every element's exact value, for RECORD and NAN_LOST. -/
def DrainEnv.values (e : DrainEnv) : List FVal :=
  (List.range 16384).map fun x => drainVal e.set e.quarter e.rows e.cols x

/-! ### Scale trackers (R135, R136) -/

/-- A tracker's state as numbers: the fields of SCT_CFG, CUR, and the ring. -/
def trkExp (cfg : Nat) : Int := signed 8 (bits cfg 8 8)

/-- The larger of two non-negative FP32 codes; an infinity is the largest. -/
def maxCode (a b : Nat) : Nat := if (f32 a).lt (f32 b) then b else a

/-- CUR and SCT_CFG after a record of some values (R135). -/
def recordCur (cur : Nat) (vs : List FVal) : Nat := vs.foldl (fun c v => if isNan v then c else maxCode c (truncMag32 v)) cur
def recordCfg (cfg : Nat) (vs : List FVal) : Nat := if vs.any isNan then putBits cfg 20 1 1 else cfg

/-- SCT_CFG after an advance (R136), given the ring with CUR in its place. -/
def advanceCfg (cfg : Nat) (hist : List Nat) : Nat :=
  let h := hist.foldl maxCode 0
  match f32 h with
  | .inf false => putBits cfg 20 1 1
  | .fin false m e =>
    if m = 0 then cfg
    else putBits cfg 8 8 (wrap 8 (clampInt (-126) 127 (Dy.log2 ⟨m, e⟩ - emaxOf (bits cfg 0 2) + signed 4 (bits cfg 4 4))))
  | _ => cfg

/-- One advance of the tracker whose registers lie at `cfg`, `cur` and `hist` (R136, R399). -/
def advanceTracker (cfg cur : Nat) (hist : Nat → Nat) (d : Dev) : Dev :=
  let head := (bits (rdKey d cfg) 16 4 + 1) % 16
  let d := wrKey (hist head) (rdKey d cur) (wrKey cfg (putBits (rdKey d cfg) 16 4 head) d)
  let d := wrKey cur 0 d
  wrKey cfg (advanceCfg (rdKey d cfg) ((List.range 16).map fun i => rdKey d (hist i))) d

/-- Slot `n` of a core's scale trackers. -/
def sctCfg (c : CoreRef) (n : Nat) : Nat := bankKey (.sct c) SCT_CFG n
def sctCur (c : CoreRef) (n : Nat) : Nat := bankKey (.sct c) SCT_CUR n
def sctHist (c : CoreRef) (n i : Nat) : Nat := bankKey (.sct c) SCT_HIST (16 * n + i)

def sctAdvance (c : CoreRef) (n : Nat) (d : Dev) : Dev := advanceTracker (sctCfg c n) (sctCur c n) (sctHist c n) d

def sctRecord (c : CoreRef) (n : Nat) (vs : List FVal) (d : Dev) : Dev :=
  wrKey (sctCfg c n) (recordCfg (rdKey d (sctCfg c n)) vs) (wrKey (sctCur c n) (recordCur (rdKey d (sctCur c n)) vs) d)

end Sys2Proof.Machine
end

