-- ==== Sys2Proof/Machine/ArrayFeed.lean ====
section
/-! DEFINITION. The feeders: descriptor sets, address generation, skipped blocks, and the slices read ahead of the array edge
(R113 to R120, R524). -/

namespace Sys2Proof.Machine

/-! ### Formats -/

/-- The rank of a format (R70). -/
def rankOf : Nat → Nat
  | 2 | 3 | 4 | 5 | 6 => 2
  | 7 | 8 => 4
  | _ => 1

def isFp4 (f : Nat) : Bool := f == 7 || f == 8
def isMx (f : Nat) : Bool := f == 5 || f == 6 || f == 7
def isInt8 (f : Nat) : Bool := f == 4

/-- Bytes read for one element (R70); a byte holds two FP4 elements. -/
def elemBytes (f : Nat) : Nat := match f with | 0 | 1 => 2 | 9 => 4 | _ => 1

/-- The value of an element's code (R70). -/
def elemVal (f code : Nat) : FVal :=
  match f with
  | 0 => fmtBF16.decode code
  | 1 => fmtFP16.decode code
  | 2 | 5 => fmtE4M3.decode code
  | 3 | 6 => fmtE5M2.decode code
  | 4 => FVal.ofDy false ⟨signed 8 code, 0⟩
  | 7 | 8 => fmtE2M1.decode code
  | _ => fmtFP32.decode code

/-- The pairs of formats a product may have (R72). -/
def pairOk (a b : Nat) : Bool :=
  (a == 0 || a == 1) && (b == 0 || b == 1) || (a == 2 || a == 3) && (b == 2 || b == 3) ||
  (a == 5 || a == 6) && (b == 5 || b == 6) ||
  a == b && (a == 4 || a == 7 || a == 8 || a == 9)

/-! ### Descriptor sets (R114, R115, R147) -/

/-- A descriptor set as its registers hold it. -/
def readDesc (c : CoreRef) (f n : Nat) (d : Dev) : Desc :=
  let r (o : Nat) : Nat := rd (.fed c) (descOff f n + o) d
  { base := r D_BASE, fmt := bits (r D_FMT) 0 4, sparse := bit (r D_FMT) 4, occEn := bit (r D_FMT) 5,
    metaBase := r D_META_BASE, metaPitch := r D_META_PITCH, scaleBase := r D_SCALE_BASE, scalePitch := r D_SCALE_PITCH,
    occBase := r D_OCC_BASE, occPitch := r D_OCC_PITCH,
    levels := (List.range 6).map fun l =>
      { count := bits (r (D_LVL_CFG l)) 0 16 + 1, kside := bit (r (D_LVL_CFG l)) 16, win := bits (r (D_LVL_CFG l)) 17 3,
        stride := signed 32 (r (D_LVL_STRIDE l)) },
    windows := (List.range 2).map fun w =>
      { extent := bits (r (D_WIN_CFG w)) 0 16, outMul := bits (r (D_WIN_CFG w)) 16 8, inMul := bits (r (D_WIN_CFG w)) 24 8,
        pad := r (D_WIN_PAD w), stride := signed 32 (r (D_WIN_STRIDE w)) } }

/-- How many levels have a window code. -/
def winCount (ds : Desc) (code : Nat) : Nat := (ds.levels.filter fun l => l.win == code).length

/-- The checks of R147 on a set named by a product: WIN values, and each used window with one outer level, one inner level
and non-zero multipliers. -/
def descOk (ds : Desc) : Bool :=
  ds.levels.all (fun l => decide (l.win ≤ 4)) &&
  (List.range 2).all fun w =>
    let o := winCount ds (1 + 2 * w)
    let i := winCount ds (2 + 2 * w)
    (o == 0 && i == 0) ||
    (o == 1 && i == 1 && match ds.windows[w]? with | some x => x.outMul != 0 && x.inMul != 0 | none => false)

/-- The digits of an index over the levels of one role, lowest level innermost; the highest level's is unbounded (R114). -/
def digitsOver : List (Nat × Level) → Nat → List (Nat × Nat)
  | [], _ => []
  | [(i, _)], x => [(i, x)]
  | (i, l) :: t, x => (i, x % l.count) :: digitsOver t (x / l.count)

/-- The levels with their numbers. -/
def numbered (ds : Desc) : List (Nat × Level) := (List.range 6).filterMap fun i => (ds.levels[i]?).map fun l => (i, l)

/-- The digit of every level for a line and a K-side index. -/
def allDigits (ds : Desc) (line k : Nat) : List (Nat × Nat) :=
  digitsOver ((numbered ds).filter fun p => !p.2.kside) line ++ digitsOver ((numbered ds).filter fun p => p.2.kside) k

def digitOf (dg : List (Nat × Nat)) (i : Nat) : Nat := ((dg.find? fun p => p.1 == i).map (·.2)).getD 0

/-- The coordinate of window `w` (R115). -/
def winCoord (ds : Desc) (dg : List (Nat × Nat)) (w : Nat) (x : Window) : Int :=
  let at_ (code : Nat) : Nat := ((numbered ds).find? fun p => p.2.win == code).map (fun p => digitOf dg p.1) |>.getD 0
  (at_ (1 + 2 * w) * x.outMul : Nat) + (at_ (2 + 2 * w) * x.inMul : Nat) - (x.pad : Int)

/-- The address of an element, or none where it is padded (R114, R115). `k` is the index that the K-side digits split. -/
def elemAddr (ds : Desc) (line k : Nat) : Option Int :=
  let dg := allDigits ds line k
  let ws := (List.range 2).filterMap fun w =>
    if winCount ds (1 + 2 * w) = 0 then none else (ds.windows[w]?).map fun x => (winCoord ds dg w x, x)
  if ws.any fun p => decide (p.1 < 0) || decide ((p.2.extent : Int) ≤ p.1) then none
  else
    let flat := ((numbered ds).filter fun p => p.2.win == 0).foldl (fun s p => s + (digitOf dg p.1 : Int) * p.2.stride) 0
    some (ds.base + flat + ws.foldl (fun s p => s + p.1 * p.2.stride) 0)

/-! ### The shape of a product (R130, R132, R82) -/

def tileOf (p : Prod) : Nat := if p.quarter then 64 else 128
def nTiles (p : Prod) : Nat := ceilDiv p.n (tileOf p)
def mTiles (p : Prod) : Nat := ceilDiv p.m (tileOf p)
def passCount (p : Prod) : Nat := mTiles p * nTiles p
def passM (p : Prod) (ps : Nat) : Nat := ps / nTiles p
def passN (p : Prod) (ps : Nat) : Nat := ps % nTiles p
def prodSparse (p : Prod) : Bool := p.spA || p.spB
def prodRank (p : Prod) : Nat := rankOf p.fmtA
def prodInt (p : Prod) : Bool := isInt8 p.fmtA

/-- The slices of a pass before any is skipped, and the K indices that one covers. -/
def sliceCount (p : Prod) : Nat :=
  if prodSparse p then ceilDiv (2 * ceilDiv p.k 4) (prodRank p) else ceilDiv p.k (prodRank p)
def sliceCover (p : Prod) : Nat := if prodSparse p then 2 * prodRank p else prodRank p

/-- The 32-index K block of a slice, and the first slice of a block. -/
def sliceBlock (p : Prod) (t : Nat) : Nat := t * sliceCover p / 32
def blockSlice (p : Prod) (q : Nat) : Nat := ceilDiv (32 * q) (sliceCover p)

/-- The lines of a pass that a feeder reads: the place on the array edge and the line index, for the quadrants of `mask`
(R130, R132). -/
def feedLines (p : Prod) (mask extent t : Nat) : List (Nat × Nat) :=
  if p.quarter then
    (List.range 4).flatMap fun h => if bit mask h then
      ((List.range 64).filter fun i => decide (64 * t + i < extent)).map fun i => (64 * h + i, 256 * t + 64 * h + i) else []
  else ((List.range 128).filter fun i => decide (128 * t + i < extent)).map fun i => (i, 128 * t + i)

/-! ### Reads -/

/-- What a feeder's read of local memory can give: data, an address fault (R116), or poisoned data (R236). -/
inductive FeedRd (α : Type) where
  | ok (v : α)
  | fault
  | poison (addr : Nat)
deriving Repr

/-- `n` bytes of local memory at a signed address, as a number. -/
def feedNat (c : CoreRef) (a : Int) (n : Nat) (d : Dev) : FeedRd Nat :=
  if a < 0 || ((lmSize c : Nat) : Int) < a + n then .fault
  else match poisonKey (keyLoc c a.toNat) n d with
    | some k => .poison k
    | none => .ok (lmNat c a.toNat n d)

/-- A bit of a map: bit 0 of each byte first (R118, R119). -/
def mapBit (c : CoreRef) (base idx : Nat) (d : Dev) : FeedRd Bool :=
  match feedNat c ((base + idx / 8 : Nat) : Int) 1 d with
  | .ok b => .ok (bit b (idx % 8))
  | .fault => .fault
  | .poison a => .poison a

/-- One element, at element index `x` of the K side (κ or the kept-value index), standing at K index `κ` (R70, R73, R114). -/
def feedElem (c : CoreRef) (ds : Desc) (line x κ : Nat) (d : Dev) : FeedRd (Nat × FVal) :=
  match elemAddr ds line (if isFp4 ds.fmt then x / 2 else x) with
  | none => .ok (κ, plusZero)
  | some a =>
    match feedNat c a (elemBytes ds.fmt) d with
    | .fault => .fault
    | .poison k => .poison k
    | .ok v =>
      let code := if isFp4 ds.fmt then bits v (4 * (x % 2)) 4 else v
      let e := elemVal ds.fmt code
      if isMx ds.fmt then
        match feedNat c ((ds.scaleBase + line * ds.scalePitch + κ / 32 : Nat) : Int) 1 d with
        | .ok 0xFF => .ok (κ, .nan)
        | .ok s => .ok (κ, e.scale ((s : Int) - 127))
        | .fault => .fault
        | .poison k => .poison k
      else .ok (κ, e)

/-- Results of a list of reads: the first failure, or all the values. -/
def collect {α : Type} : List (FeedRd α) → FeedRd (List α)
  | [] => .ok []
  | .ok v :: t => match collect t with | .ok vs => .ok (v :: vs) | .fault => .fault | .poison a => .poison a
  | .fault :: _ => .fault
  | .poison a :: _ => .poison a

/-- One kept value of a sparse operand (R80 to R82, R116); none beyond the last K index (DEDUCED, log entry 37). -/
def keptElem (c : CoreRef) (ds : Desc) (line h kLen : Nat) (d : Dev) : FeedRd (Option (Nat × FVal)) :=
  let g := h / 2
  match feedNat c ((ds.metaBase + line * ds.metaPitch + g / 2 : Nat) : Int) 1 d with
  | .fault => .fault
  | .poison a => .poison a
  | .ok m =>
    let κ := 4 * g + bits m (4 * (g % 2) + 2 * (h % 2)) 2
    if kLen ≤ κ then .ok none
    else match feedElem c ds line h κ d with
      | .ok v => .ok (some v)
      | .fault => .fault
      | .poison a => .poison a

/-- The K indices of a side that is not sparse in slice `t`. -/
def sliceKs (p : Prod) (t : Nat) : List Nat :=
  let r := prodRank p
  if prodSparse p then countFrom (4 * (r * t / 2)) (4 * ((r * t + r - 1) / 2) + 4 - 4 * (r * t / 2)) else countFrom (r * t) r

/-- The operands of one line in slice `t`. -/
def lineOps (c : CoreRef) (ds : Desc) (p : Prod) (line t : Nat) (d : Dev) : FeedRd LineOps :=
  let r := prodRank p
  if ds.sparse then
    match collect ((countFrom (r * t) r).map fun h =>
        if p.k ≤ 4 * (h / 2) then .ok none else keptElem c ds line h p.k d) with
    | .ok vs => .ok (vs.filterMap id)
    | .fault => .fault
    | .poison a => .poison a
  else
    collect (((sliceKs p t).filter fun κ => decide (κ < p.k)).map fun κ => feedElem c ds line κ κ d)

/-- All the lines of a slice for one feeder. -/
def sliceLines (c : CoreRef) (ds : Desc) (p : Prod) (mask extent tile t : Nat) (d : Dev) :
    FeedRd (List (Nat × LineOps)) :=
  collect ((feedLines p mask extent tile).map fun l =>
    match lineOps c ds p l.2 t d with
    | .ok ops => .ok (l.1, ops)
    | .fault => .fault
    | .poison a => .poison a)

/-! ### Skipped work (R118 to R120) -/

/-- The quadrants of a product; in normal mode the one tile. -/
def quads (p : Prod) : List Nat := if p.quarter then [0, 1, 2, 3] else [0]
def allQuads (p : Prod) : Nat := if p.quarter then 15 else 1

/-- The occupancy bits of one feeder for K block `q` (R118). -/
def occMask (c : CoreRef) (ds : Desc) (p : Prod) (tile q : Nat) (d : Dev) : FeedRd Nat :=
  if !ds.occEn then .ok (allQuads p)
  else match collect ((quads p).map fun h =>
      mapBit c ds.occBase ((if p.quarter then 4 * tile + h else tile) * ds.occPitch + q) d) with
    | .ok bs => .ok ((quads p).foldl (fun m h => if (bs[h]?).getD false then m + 2 ^ h else m) 0)
    | .fault => .fault
    | .poison a => .poison a

/-- The 128-line block of a tile in the attention map (R119): in quarter mode a quadrant's own lines are 64 to a tile. -/
def mapBlock (p : Prod) (tile : Nat) : Nat := if p.quarter then tile / 2 else tile

/-- The attention map's bit [r][s], for every quadrant alike. -/
def attMask (c : CoreRef) (x : ProdExec) (r s : Nat) (d : Dev) : FeedRd Nat :=
  match mapBit c x.mapBase (r * x.mapPitch + s) d with
  | .ok b => .ok (if b then allQuads x.p else 0)
  | .fault => .fault
  | .poison a => .poison a

/-- The quadrants that run a whole pass (R119, OUT). -/
def passMaskOf (c : CoreRef) (x : ProdExec) (ps : Nat) (d : Dev) : FeedRd Nat :=
  if x.p.map = 1 then attMask c x (mapBlock x.p (passM x.p ps)) (mapBlock x.p (passN x.p ps)) d else .ok (allQuads x.p)

/-- The quadrants that run K block `q` of a pass, by the maps alone (R118, R119). The feeder a failed read belongs to is
named: true for B. -/
def blockMaskOf (c : CoreRef) (x : ProdExec) (ps q : Nat) (d : Dev) : FeedRd Nat × Bool :=
  match x.da, x.db with
  | some da, some db =>
    match occMask c da x.p (passM x.p ps) q d with
    | .ok ma =>
      match occMask c db x.p (passN x.p ps) q d with
      | .ok mb =>
        let r := mapBlock x.p (passM x.p ps)
        match (if x.p.map = 2 then attMask c x r (q / 4) d else if x.p.map = 3 then attMask c x (q / 4) r d
               else .ok (allQuads x.p)) with
        | .ok mm => (.ok (ma &&& mb &&& mm), false)
        | e => (e, false)
      | e => (e, true)
    | e => (e, false)
  | _, _ => (.ok (allQuads x.p), false)

/-- The map bytes that the occupancy bits of a feeder and a bit of the attention map lie in. -/
def occPlaces (ds : Desc) (p : Prod) (tile q : Nat) : List Nat :=
  if !ds.occEn then [] else (quads p).map fun h => ds.occBase + ((if p.quarter then 4 * tile + h else tile) * ds.occPitch + q) / 8
def attPlace (x : ProdExec) (r s : Nat) : Nat := x.mapBase + (r * x.mapPitch + s) / 8

/-- The key of a whole pass's decision in `kdec`. -/
def passDec : Nat := 2 ^ 40

def decFind (x : ProdExec) (ps q : Nat) : Option Nat := (x.kdec.find? fun e => e.1 == (ps, q)).map (·.2)

/-- The map bytes that a decision reads. -/
def decPlaces (x : ProdExec) (ps q : Nat) : List Nat :=
  let r := mapBlock x.p (passM x.p ps)
  if q = passDec then (if x.p.map = 1 then [attPlace x r (mapBlock x.p (passN x.p ps))] else [])
  else match x.da, x.db with
    | some da, some db => occPlaces da x.p (passM x.p ps) q ++ occPlaces db x.p (passN x.p ps) q ++
        (if x.p.map = 2 then [attPlace x r (q / 4)] else if x.p.map = 3 then [attPlace x (q / 4) r] else [])
    | _, _ => []

/-- Reads of local memory, with what error correction does to them (R222, R232, R233). -/
def touchBytes (c : CoreRef) (ps : List (Nat × Nat)) (d : Dev) : Dev :=
  ps.foldl (fun d p => if p.1 + p.2 ≤ lmSize c then readEffects (keyLoc c p.1) p.2 d else d) d

/-- The reads of the decisions that `y` has beyond `x`. -/
def touchMaps (c : CoreRef) (x y : ProdExec) (d : Dev) : Dev :=
  touchBytes c ((y.kdec.take (y.kdec.length - x.kdec.length)).flatMap fun e => (decPlaces y e.1.1 e.1.2).map fun a => (a, 1)) d

/-- Where a search for the next slice ends. -/
inductive Seek where
  | at_ (t mask : Nat)
  | endPass
  | bad (b : Bool) (poison : Option Nat)
deriving Repr

/-- A decision looked up or made, and recorded; `skip` counts the slices that a new 0 decision skips (R146). -/
def decide1 (c : CoreRef) (ps q : Nat) (x : ProdExec) (d : Dev) : (FeedRd Nat × Bool) × ProdExec × Nat :=
  match decFind x ps q with
  | some m => ((.ok m, false), x, 0)
  | none =>
    let r := if q = passDec then (passMaskOf c x ps d, false) else blockMaskOf c x ps q d
    match r.1 with
    | .ok m =>
      let n := if m ≠ 0 then 0 else if q = passDec then sliceCount x.p
        else min (sliceCount x.p) (blockSlice x.p (q + 1)) - blockSlice x.p q
      (r, { x with kdec := ((ps, q), m) :: x.kdec }, n)
    | _ => (r, x, 0)

/-- The next slice of pass `ps` at or after `t` that runs. -/
def seekIn (c : CoreRef) (ps : Nat) (d : Dev) : Nat → Nat → ProdExec → Nat → Seek × ProdExec × Nat
  | 0, _, x, n => (.endPass, x, n)
  | fuel + 1, t, x, n =>
    if sliceCount x.p ≤ t then (.endPass, x, n)
    else
      let q := sliceBlock x.p t
      match decide1 c ps q x d with
      | ((.ok m, _), x', k) => if m = 0 then seekIn c ps d fuel (blockSlice x.p (q + 1)) x' (n + k) else (.at_ t m, x', n + k)
      | ((.fault, b), x', k) => (.bad b none, x', n + k)
      | ((.poison a, b), x', k) => (.bad b (some a), x', n + k)

/-- A search of pass `ps` from slice `t`, the pass's own decision first; an OUT-skipped pass is at its end. -/
def seek (c : CoreRef) (ps t : Nat) (x : ProdExec) (d : Dev) : Seek × ProdExec × Nat :=
  match decide1 c ps passDec x d with
  | ((.ok m, _), x', k) =>
    if m = 0 then (.endPass, x', k)
    else
      let r := seekIn c ps d (ceilDiv x.p.k 32 + 1) t x' k
      (match r.1 with | .at_ t' m' => .at_ t' (m &&& m') | s => s, r.2.1, r.2.2)
  | ((.fault, b), x', k) => (.bad b none, x', k)
  | ((.poison a, b), x', k) => (.bad b (some a), x', k)

/-- The pass is skipped whole in OUT mode (R120). -/
def outSkipped (x : ProdExec) (ps : Nat) : Bool := decFind x ps passDec == some 0

/-- The pass is known to run: no map can skip it whole, or its decision is made (R119, R120). -/
def passRuns (x : ProdExec) (ps : Nat) : Bool := x.p.map != 1 || (decFind x ps passDec).any (· != 0)

/-- The next place to read from (pass, t) on, over the passes. -/
def seekOn (c : CoreRef) (d : Dev) : Nat → Nat → Nat → ProdExec → Nat → Option (Nat × Seek) × ProdExec × Nat
  | 0, _, _, x, n => (none, x, n)
  | fuel + 1, ps, t, x, n =>
    if passCount x.p ≤ ps then (none, x, n)
    else match seek c ps t x d with
      | (.endPass, x', k) => seekOn c d fuel (ps + 1) 0 x' (n + k)
      | (s, x', k) => (some (ps, s), x', n + k)

/-! ### The state of a feeder -/

def getFeed (x : ProdExec) (f : Nat) : Feed := if f = 0 then x.fa else x.fb
def putFeed (f : Nat) (v : Feed) (x : ProdExec) : ProdExec := if f = 0 then { x with fa := v } else { x with fb := v }
def modFeed (f : Nat) (g : Feed → Feed) (x : ProdExec) : ProdExec := putFeed f (g (getFeed x f)) x

def modArr (c : CoreRef) (g : ArrSt → ArrSt) (d : Dev) : Dev := modCore c (fun x => { x with arr := g x.arr }) d
def getArr (c : CoreRef) (d : Dev) : ArrSt := (getCore c d).arr
def setProd (c : CoreRef) (p : Option ProdExec) (d : Dev) : Dev := modArr c (fun a => { a with prod := p }) d

/-- R116: FED latches ADDRESS_FAULT, the feeder holds (the array then freezes with its cause), and the stream stops. -/
def feedFault (c : CoreRef) (f : Nat) (x : ProdExec) (d : Dev) : Dev :=
  let d := slotStop c x.job (latch (.fed c) cAddressFault d)
  setProd c (some (modFeed f (fun v => { v with fault := true }) x)) d

/-- R236: poisoned data read to be used holds the slice back. -/
def feedPoison (c : CoreRef) (f key : Nat) (x : ProdExec) (d : Dev) : Dev :=
  let d := lmmPoisonUse c (keyAddr key d) d
  setProd c (some (modFeed f (fun v => { v with held := true }) x)) d

/-- A search's failure, laid to the feeder it belongs to. -/
def seekBad (c : CoreRef) (b : Bool) (poison : Option Nat) (x : ProdExec) (d : Dev) : Dev :=
  match poison with
  | some k => feedPoison c (if b then 1 else 0) k x d
  | none => feedFault c (if b then 1 else 0) x d

/-- The descriptor sets and the attention map's place, latched as the first slice is requested (R117). -/
def latchDescs (c : CoreRef) (x : ProdExec) (d : Dev) : ProdExec :=
  match x.da with
  | some _ => x
  | none => { x with da := some (readDesc c 0 x.p.setA d), db := some (readDesc c 1 x.p.setB d),
                     mapBase := rd (.fed c) FED_MAP_BASE d, mapPitch := rd (.fed c) FED_MAP_PITCH d }

/-- The byte ranges that a slice's reads touch, for their error correction: the elements, and the metadata and scales beside them. -/
def slicePlaces (ds : Desc) (p : Prod) (mask extent tile t : Nat) : List (Nat × Nat) :=
  let xs := if ds.sparse then (countFrom (prodRank p * t) (prodRank p)).filter fun h => decide (4 * (h / 2) < p.k)
    else (sliceKs p t).filter fun κ => decide (κ < p.k)
  (feedLines p mask extent tile).flatMap fun l => xs.flatMap fun x =>
    (match elemAddr ds l.2 (if isFp4 ds.fmt then x / 2 else x) with
      | some a => if 0 ≤ a then [(a.toNat, elemBytes ds.fmt)] else []
      | none => []) ++
    (if ds.sparse then [(ds.metaBase + l.2 * ds.metaPitch + x / 4, 1)] else []) ++
    (if isMx ds.fmt then [(ds.scaleBase + l.2 * ds.scalePitch + (if ds.sparse then 4 * (x / 2) else x) / 32, 1)] else [])

/-- One slice read by feeder `f` (R524): its place found, its lines read into flight. -/
def feedOne (c : CoreRef) (f : Nat) (x : ProdExec) (d : Dev) : Dev :=
  let x := latchDescs c x d
  let fd := getFeed x f
  let d := touchMaps c x (seekOn c d (passCount x.p + 1) fd.pass fd.t x 0).2.1 d
  match seekOn c d (passCount x.p + 1) fd.pass fd.t x 0 with
  | (none, x, n) => bump64 (.fed c) FED_SKIP_LO n (setProd c (some (modFeed f (fun v => { v with pass := passCount x.p }) x)) d)
  | (some (_, .bad b k), x, n) => seekBad c b k x (bump64 (.fed c) FED_SKIP_LO n d)
  | (some (_, .endPass), x, _) => setProd c (some x) d
  | (some (ps, .at_ t m), x, n) =>
    let d := bump64 (.fed c) FED_SKIP_LO n d
    match (if f = 0 then x.da else x.db) with
    | none => d
    | some ds =>
      let extent := if f = 0 then x.p.m else x.p.n
      let tile := if f = 0 then passM x.p ps else passN x.p ps
      let d := touchBytes c (slicePlaces ds x.p m extent tile t) d
      match sliceLines c ds x.p m extent tile t d with
      | .ok ls => setProd c (some (modFeed f (fun v => { v with pass := ps, t := t + 1, fly := v.fly ++ [⟨ps, t, ls⟩] }) x)) d
      | .fault => feedFault c f x d
      | .poison k => feedPoison c f k x d

/-- FEEDER_READ (R524): feeder `f` of the product at the edge reads ahead while its buffer holds fewer than 32 slices. -/
def feederRead (c : CoreRef) (f : Nat) (d : Dev) : Dev :=
  match (getArr c d).prod with
  | some x =>
    let fd := getFeed x f
    if fd.fault || fd.held || decide (32 ≤ fd.buf.length) || decide (passCount x.p ≤ fd.pass) || idle (.lmm c) d ||
        idle (.fed c) d then d
    else feedOne c f x d
  | none => d

/-- FEEDER_BANK_DATA (R524): the oldest access in flight reaches the buffer. -/
def feederBankData (c : CoreRef) (f : Nat) (d : Dev) : Dev :=
  match (getArr c d).prod with
  | some x =>
    let fd := getFeed x f
    match fd.fly with
    | s :: rest =>
      if 32 ≤ fd.buf.length then d
      else setProd c (some (putFeed f { fd with fly := rest, buf := fd.buf ++ [s] } x)) d
    | [] => d
  | none => d

end Sys2Proof.Machine
end

