-- ==== Sys2Proof/Machine/Array.lean ====
section
/-! DEFINITION. The array (R97, R98, R110, R122 to R133, R163 to R167): its cycle and freeze causes, swaps, drains, loads,
quarantine dumps, and the slots that name it. -/

namespace Sys2Proof.Machine

/-! ### The edge -/

/-- The set that a pass accumulates into. -/
def activeSet (a : ArrSt) : AccSet := getSet a a.active
def shadowNo (a : ArrSt) : Nat := 1 - a.active

/-- The first cause of R124 that can hold whatever the edge does. -/
def safeCause (c : CoreRef) (d : Dev) : Bool := isSafe (.arr c) d || isSafe (.fed c) d
/-- R47, R55: the array works only while its array and feeder blocks are enabled and outside the
safe state. -/
def arrIdle (c : CoreRef) (d : Dev) : Bool := idle (.arr c) d || idle (.fed c) d

/-- The edge stands between the three parts of an FP32 index, inside a slice (R79, R111). -/
def midSlice (a : ArrSt) : Bool := match a.prod with | some x => decide (x.part ≠ 0) | none => false

/-- The pass that is to use the shadow set has to load it (R131). -/
def needsLoad (x : ProdExec) : Bool := !x.p.start && !x.cont

/-- The shadow set is ready (R127): not quarantined, no drain of it pending or in progress, its load complete. -/
def shadowReady (a : ArrSt) (x : ProdExec) : Bool :=
  !(getSet a (shadowNo a)).quar && a.drains.all (fun j => j.set != shadowNo a) &&
  (!needsLoad x || (x.loadAsked && a.load.isNone)) && a.load.isNone

/-- The sets exchange roles for a pass (R126, R77). -/
def doSwap (a : ArrSt) (x : ProdExec) : ArrSt × ProdExec :=
  let a := { a with active := shadowNo a }
  let a := if x.p.start then modSet a.active (startSet (prodInt x.p)) a
    else if (activeSet a).tag = 0 then modSet a.active (startSet (prodInt x.p)) a else a
  (a, { x with swapped := true, loadAsked := false })

/-- Slices in the pipeline move on one cycle: a slice of age 4 + g is accumulated in group g (R122). -/
def pipeAge (a : ArrSt) : ArrSt :=
  let aged := a.pipe.map fun e => { e with age := e.age + 1 }
  let a := aged.foldl (fun a e =>
    if 4 ≤ e.age && decide (e.age ≤ 11) then modSet e.set (rowsSlice e (groupRows a.exRows (e.age - 4))) a else a) a
  { a with pipe := aged.filter (fun e => decide (e.age < 11)),
           drains := a.drains.map fun j => { j with age := j.age + 1 },
           tails := a.tails.map fun t => (t.1, t.2 + 1) }

/-- A failed residue check sets a sticky bit of the cell, in the set that the slice in that stage of the row's group updates (R96):
the multiplier's slice is of age 1 + g as the cycle begins, the adders' one or two cycles older (R122). -/
def checkFail (f : CheckFail) (a : ArrSt) : ArrSt :=
  match logicalLine a.exRows f.row, logicalLine a.exCols f.col with
  | some i, some j =>
    let g := skewGroup f.row
    match a.pipe.find? fun e => e.age == 1 + g + f.stage.val with
    | some e => modSet e.set (fun s =>
        let x := getCell s i j
        setCell i j (if f.shift then { x with shift := true } else { x with arith := true }) s) a
    | none => a
  | _, _ => a

/-- The pass at the edge has presented its last slice: its drain is due (R128, R130, R131) (DEDUCED, log entry 34). -/
def endPass (c : CoreRef) (x : ProdExec) (d : Dev) : Dev :=
  let a := getArr c d
  let mt := passM x.p x.pass
  let nt := passN x.p x.pass
  let job : DrainJob :=
    { set := a.active, dr := x.p.dr, toAcc := !x.p.last, int := prodInt x.p,
      dest := if x.p.last then x.p.dr.addr + x.pass * formSize x.p.dr.form else x.p.acc + 98304 * x.pass,
      rows := x.p.m - mt * tileOf x.p, cols := x.p.n - nt * tileOf x.p, quarter := x.p.quarter,
      age := 0, job := x.job, stream := x.stream }
  let a := if x.cont && !x.p.last then { a with tails := a.tails ++ [(x.job, 0)] } else { a with drains := a.drains ++ [job] }
  modArr c (fun _ => { a with prod := some { x with pass := x.pass + 1, t := 0, part := 0, swapped := false, started := false } }) d

/-- The slot of a product: its passes are done at the edge and in the drain path (R120, R167). -/
def prodDone (c : CoreRef) (id : Nat) (flag : Bool) (fno : Nat) (d : Dev) : Dev :=
  let a := getArr c d
  let edge := match a.prod with | some x => x.job == id | none => false
  if edge || a.drains.any (fun j => j.job == id) || a.tails.any (fun t => t.1 == id) then d
  else finishJob c id (if flag then advFlag c fno d else d)

/-- The completion flag of a queued array slot. -/
def jobFlag (x : CoreSt) (id : Nat) : Bool × Nat :=
  match getJob id x with
  | some j => match j.work with
    | .product p => (p.dr.flagEn, p.dr.flag)
    | .drain r => (r.flagEn, r.flag)
    | .load r => (r.flagEn, r.flag)
    | _ => (false, 0)
  | none => (false, 0)

/-- The slot may be complete (R120, R167). -/
def settle (c : CoreRef) (id : Nat) (d : Dev) : Dev :=
  let f := jobFlag (getCore c d) id
  prodDone c id f.1 f.2 d

/-- The edge has no more passes: the product leaves it, its feeders' reads are over (R172), and its accumulator store is
remembered for R131. -/
def edgeEnd (c : CoreRef) (x : ProdExec) (d : Dev) : Dev :=
  let d := modArr c (fun a => { a with prod := none }) d
  let d := modCore c (freeReads x.job) d
  settle c x.job d

/-- The pass's set as its first slice is presented. -/
def presentEnt (a : ArrSt) (x : ProdExec) (la lb : List (Nat × LineOps)) : PipeEnt :=
  { age := 0, set := a.active, start := x.p.start && !x.cont && !x.started, int := prodInt x.p, fp32 := x.p.fmtA == 9,
    quarter := x.p.quarter, a := la, b := lb }

/-- A continuing product's first slice finds its set EMPTY: it begins the set as a start slice does (R77, R131). -/
def contStart (x : ProdExec) (a : ArrSt) : ArrSt :=
  if x.cont && !x.started && decide ((activeSet a).tag = 0) then modSet a.active (startSet (prodInt x.p)) a else a

/-- The edge takes one slice (R69), or one of the three parts of an FP32 index (R79). -/
def present (c : CoreRef) (x : ProdExec) (sa sb : Slice) (d : Dev) : Dev :=
  if x.p.fmtA = 9 && decide (x.part < 2) then setProd c (some { x with part := x.part + 1 }) d
  else
    let d := modArr c (contStart x) d
    let e := presentEnt (getArr c d) x sa.lines sb.lines
    let x := { x with part := 0, started := true, t := sa.t + 1,
                      fa := { x.fa with buf := x.fa.buf.drop 1 }, fb := { x.fb with buf := x.fb.buf.drop 1 } }
    let d := modArr c (fun a => { a with pipe := a.pipe ++ [e], prod := some x }) d
    let d := bump64 (.arr c) ARR_SLICES_LO 1 d
    let d := if prodSparse x.p then bump64 (.arr c) ARR_SPARSE_LO 1 d else d
    let d := touchMaps c x (seek c x.pass x.t x d).2.1 d
    match seek c x.pass x.t x d with
    | (.endPass, x, n) => endPass c x (bump64 (.fed c) FED_SKIP_LO n d)
    | (.at_ _ _, x, n) => setProd c (some x) (bump64 (.fed c) FED_SKIP_LO n d)
    | (.bad b k, x, n) => seekBad c b k x (bump64 (.fed c) FED_SKIP_LO n d)

/-- What the edge can do in a cycle that neither SAFE nor THROTTLE freezes. -/
inductive Edge where
  /-- no MX work -/
  | idle
  /-- frozen under the counter at the offset; `hold` says whether the pipeline holds too (R127) -/
  | freeze (ctr : Nat) (hold : Bool)
  /-- a slice can be taken, after the due swap if there is one -/
  | take (sa sb : Slice)
  /-- the pass has no slice left to present, after the due swap -/
  | emptyPass
deriving Repr

/-- The heads of the feeders' buffers that stand for the next slice of the pass. -/
def nextSlice (f : Feed) (ps t : Nat) : Option Slice :=
  match f.buf with
  | s :: _ => if s.pass = ps ∧ s.t = t then some s else none
  | [] => none

/-- The freeze that a due swap waits under (R127): the pipeline moves on while the drain waited for has not begun. -/
def swapWait (a : ArrSt) : Edge :=
  if (getSet a (shadowNo a)).quar then .freeze FED_FRZ_QUAR true
  else .freeze FED_FRZ_DRAIN (!(a.drains.any fun j => j.set == shadowNo a && j.out.isNone))

/-- The edge's state: the causes QUAR, DRAIN, FEED_A and FEED_B in the order of R124. -/
def edgeState (c : CoreRef) (x : ProdExec) (d : Dev) : Edge × ProdExec × Nat :=
  let a := getArr c d
  let dueSwap := !x.swapped && !x.cont
  if dueSwap && !shadowReady a x then (swapWait a, x, 0)
  else match seek c x.pass x.t x d with
    | (.endPass, x, n) => (.emptyPass, x, n)
    | (.bad b _, x, n) => (.freeze (if b then FED_FRZ_FEED_B else FED_FRZ_FEED_A) true, x, n)
    | (.at_ t _, x, n) =>
      match nextSlice x.fa x.pass t, nextSlice x.fb x.pass t with
      | some sa, some sb => (.take sa sb, x, n)
      | none, _ => (.freeze FED_FRZ_FEED_A true, x, n)
      | some _, none => (.freeze FED_FRZ_FEED_B true, x, n)

/-- Passes that OUT mode skips take no cycles (R120). -/
def skipPasses (c : CoreRef) (d : Dev) : Nat → ProdExec → Nat → ProdExec × Nat
  | 0, x, n => (x, n)
  | fuel + 1, x, n =>
    if passCount x.p ≤ x.pass || x.swapped then (x, n)
    else match decide1 c x.pass passDec x d with
      | ((.ok 0, _), x', k) => skipPasses c d fuel { x' with pass := x'.pass + 1, t := 0 } (n + k)
      | (_, x', k) => (x', n + k)

/-- A frozen cycle is counted once in all and once under its cause (R125). -/
def countFreeze (c : CoreRef) (ctr : Nat) (d : Dev) : Dev :=
  bump64 (.fed c) FED_FRZ_TOTAL_LO 1 (bump (.fed c) ctr 1 d)

/-- A continuing product's work is over once its last slice is accumulated (R131). -/
def tailsDone (c : CoreRef) (d : Dev) : Dev :=
  let done := (getArr c d).tails.filter fun t => decide (11 ≤ t.2)
  let d := modArr c (fun a => { a with tails := a.tails.filter fun t => decide (t.2 < 11) }) d
  done.foldl (fun d t => settle c t.1 d) d

/-- The pipeline's share of an unfrozen cycle, the residue checks of the cycle first. -/
def pipeCycle (c : CoreRef) (failed : List CheckFail) (d : Dev) : Dev :=
  tailsDone c (modArr c (fun a => pipeAge (failed.foldl (fun a f => checkFail f a) a)) d)

/-- The swap that is due, when it is due (R127). -/
def swapIfDue (c : CoreRef) (x : ProdExec) (d : Dev) : Dev × ProdExec :=
  if !x.swapped && !x.cont then
    let r := doSwap (getArr c d) x
    (modArr c (fun _ => { r.1 with prod := some r.2 }) d, r.2)
  else (d, x)

/-- One cycle of the edge with a product there. -/
def edgeCycle (c : CoreRef) (x : ProdExec) (failed : List CheckFail) (d : Dev) : Dev :=
  let x := latchDescs c x d
  let d := touchMaps c x (seekOn c d (passCount x.p + 1) x.pass x.t x 0).2.1 d
  let r := skipPasses c d (passCount x.p + 1) x 0
  let x := r.1
  let d := bump64 (.fed c) FED_SKIP_LO r.2 (setProd c (some x) d)
  if passCount x.p ≤ x.pass then edgeEnd c x (pipeCycle c failed d)
  else match edgeState c x d with
    | (.idle, _, _) => pipeCycle c failed d
    | (.freeze ctr hold, x, n) =>
      let d := countFreeze c ctr (bump64 (.fed c) FED_SKIP_LO n (setProd c (some x) d))
      if hold then d else pipeCycle c failed d
    | (.take sa sb, x, n) =>
      let d := pipeCycle c failed (bump64 (.fed c) FED_SKIP_LO n (setProd c (some x) d))
      let r := swapIfDue c x d
      let d := present c r.2 sa sb r.1
      match (getArr c d).prod with
      | some y => if passCount y.p ≤ y.pass then edgeEnd c y d else d
      | none => d
    | (.emptyPass, x, n) =>
      let d := pipeCycle c failed (bump64 (.fed c) FED_SKIP_LO n (setProd c (some x) d))
      let r := swapIfDue c x d
      let d := endPass c r.2 r.1
      match (getArr c d).prod with
      | some y => if passCount y.p ≤ y.pass then edgeEnd c y d else d
      | none => d

/-- ARRAY_CYCLE (R124): frozen by SAFE, at a slice boundary (R112), or by THROTTLE, or whatever the edge allows. -/
def arrayCycle (c : CoreRef) (throttle : Bool) (failed : List CheckFail) (d : Dev) : Dev :=
  let a := getArr c d
  let work := a.prod.isSome || !a.pipe.isEmpty
  if safeCause c d && !midSlice a then (if work then countFreeze c FED_FRZ_SAFE d else d)
  else if arrIdle c d && !safeCause c d then d
  else
    let quar := match a.prod with
      | some x => !x.swapped && !x.cont && decide (x.pass < passCount x.p) && (getSet a (shadowNo a)).quar
      | none => false
    if quar && throttle then countFreeze c FED_FRZ_QUAR d
    else if throttle then (if work then countFreeze c FED_FRZ_THROTTLE d else d)
    else match a.prod with
      | some x => edgeCycle c x failed d
      | none => pipeCycle c failed d

/-- SWAP (R127): a due swap takes place if the shadow set is ready. -/
def swapOp (c : CoreRef) (d : Dev) : Dev :=
  match (getArr c d).prod with
  | some x =>
    if !x.swapped && !x.cont && decide (x.pass < passCount x.p) && shadowReady (getArr c d) x && passRuns x x.pass &&
        !arrIdle c d
    then (swapIfDue c x d).1 else d
  | none => d

/-! ### Drains -/

/-- The rounding of a drain (R93, R105, R167): true for stochastic. -/
def drainStoch (c : CoreRef) (r : DrSlot) (d : Dev) : Bool :=
  r.rnd == 2 || (r.rnd == 0 && rdF (.arr c) ARR_CFG 0 2 d == 1)

/-- The form a drain writes: the slot's, or RAW into the accumulator store. -/
def jobForm (j : DrainJob) : Nat := if j.toAcc then 1 else j.dr.form

/-- The conversion of a drain (R137: the exponent as latched now). -/
def drainEnv (c : CoreRef) (j : DrainJob) (d : Dev) : DrainEnv :=
  let form := jobForm j
  { set := getSet (getArr c d) j.set, form := form, toAcc := j.toAcc, int := j.int, quarter := j.quarter,
    colblk := j.dr.colblk, rows := j.rows, cols := j.cols,
    sat4 := rdBit (.arr c) ARR_CFG 2 d, sat5 := rdBit (.arr c) ARR_CFG 3 d,
    stoch := !j.toAcc && form != 1 && form != 2 && drainStoch c j.dr d,
    exp := if !j.toAcc && j.dr.apply then some (trkExp (rdKey d (sctCfg c j.dr.trk))) else none }

/-- A drain is held while a unit it names is in its safe state (R150). -/
def drainHeld (c : CoreRef) (j : DrainJob) (d : Dev) : Bool :=
  !j.toAcc &&
  ((idle (.sct c) d && (j.dr.record || j.dr.advance || j.dr.apply)) ||
   (idle (.vec c) d && (drainEnv c j d).stoch))

/-- R97: the drain of a set with sticky bits writes nothing and advances no flag; the set is quarantined and the issuing
stream stops. -/
def residueMismatch (c : CoreRef) (j : DrainJob) (bad : List (Nat × Nat × Cell)) (d : Dev) : Dev :=
  let d := match bad with
    | (row, col, cl) :: _ => latchWith (.arr c) cResidueMismatch (wr (.arr c) ARR_RES_LOC
        (row + col * 256 + j.set * 65536 + b2n cl.arith * 2 ^ 17 + b2n cl.shift * 2 ^ 18 + sat 255 bad.length * 2 ^ 24)) d
    | [] => d
  let d := modArr c (modSet j.set fun s => { s with quar := true }) d
  stopStream c j.stream 5 d

/-- The slot of an abandoned drain: with nothing else to do it ends, its flag withheld. -/
def abandonDrain (c : CoreRef) (id : Nat) (d : Dev) : Dev :=
  let d := modCore c (withholdWord id) d
  let d := modCore c (modJob id fun j => { j with work := match j.work with
    | .product p => .product { p with dr := { p.dr with flagEn := false } }
    | .drain r => .drain { r with flagEn := false }
    | w => w }) d
  settle c id d

/-- The generators move on by the draws of a stochastic drain: every lane, once for each pair of rows (R93). -/
def drainDraws (c : CoreRef) (d : Dev) : Dev :=
  let d := if freeRunning c d then d else modCore c (fun x => { x with ctrAll := (x.ctrAll + 64) % 2 ^ 64 }) d
  drawsReg c 16384 d

/-- The reads of a drain begin (R97, R128, R135, R137). -/
def beginDrain (c : CoreRef) (j : DrainJob) (rest : List DrainJob) (d : Dev) : Dev :=
  let a := getArr c d
  let st := getSet a j.set
  match failing a st with
  | b :: bs => abandonDrain c j.job (residueMismatch c j (b :: bs) (modArr c (fun a => { a with drains := rest }) d))
  | [] =>
    let e := drainEnv c j d
    let out := e.bytes (getCore c d)
    let d := if e.stoch then drainDraws c d else d
    let vs := e.values
    let d := if !j.toAcc && j.dr.record then sctRecord c j.dr.trk vs d else d
    let d := if st.tag = 2 && st.wrap then setEvent (.arr c) 8 d else d
    let d := if !j.toAcc && j.dr.form = 0xA && vs.any isNan then setEvent (.arr c) 9 d else d
    modArr c (fun a => { a with drains := { j with out := some out } :: rest }) d

/-- The region of a product's accumulator store, and that of its destination (R172). -/
def storeRegion (p : Prod) : List Region := if p.start && p.last then [] else mkRegion p.acc (98304 * passCount p) true
def destRegion (p : Prod) : List Region := if p.last then mkRegion p.dr.addr (passCount p * formSize p.dr.form) true else []

/-- The DR slot of a product still waits for the reads of its own word's FA and FB slots (R173). -/
def drWaits (c : CoreRef) (j : DrainJob) (d : Dev) : Bool :=
  (getJob j.job (getCore c d)).any fun b => match b.work with
    | .product p => !j.toAcc && readsConflict b (destRegion p)
    | _ => false

/-- DRAIN_START (R128): the first drain due begins its reads, when no drain, load or dump is in progress. -/
def drainStart (c : CoreRef) (d : Dev) : Dev :=
  let a := getArr c d
  match a.drains with
  | j :: rest =>
    if j.out.isSome || a.load.any (·.running) || a.dump.busy || decide (j.age < 11) || arrIdle c d || drainHeld c j d || drWaits c j d ||
        (getSet a j.set).quar || idle (.lmm c) d then d
    else beginDrain c j rest d
  | [] => d

/-- CLEAR and ADVANCE after the last write (R89, R136). -/
def drainAfter (c : CoreRef) (j : DrainJob) (d : Dev) : Dev :=
  if j.toAcc then d
  else
    let d := if j.dr.clear then modArr c (modSet j.set emptySet) d else d
    if j.dr.advance then sctAdvance c j.dr.trk d else d

/-- DRAIN_COMPLETE (R128): the tile is in local memory; CLEAR and ADVANCE act, and the slot's flag advances with its last
drain. -/
def drainComplete (c : CoreRef) (d : Dev) : Dev :=
  match (getArr c d).drains with
  | j :: rest =>
    match j.out with
    | some bs =>
      if arrIdle c d || idle (.lmm c) d || drainHeld c j d then d
      else
        let d := memWrite (keyLoc c j.dest) (bs.map (·.1)) (bs.map (·.2)) d
        let d := drainAfter c j (modArr c (fun a => { a with drains := rest }) d)
        settle c j.job d
    | none => d
  | [] => d

/-! ### Loads -/

/-- The load that the product's next pass needs (R131): asked for once the pass before it has swapped, and once it is known that the
pass is not skipped (R120). -/
def wantedLoad (a : ArrSt) : Option LoadJob :=
  match a.prod with
  | some x =>
    if !needsLoad x || x.loadAsked then none
    else
      let ps := if x.swapped then (countFrom (x.pass + 1) (passCount x.p)).find? (fun q => !outSkipped x q) else some x.pass
      match ps with
      | some q => if q < passCount x.p && passRuns x q then
          some { form := 1, addr := x.p.acc + 98304 * q, fromAcc := true, int := prodInt x.p, quarter := x.p.quarter,
                 job := x.job, stream := x.stream, running := true } else none
      | none => none
  | none => none

/-- LOAD_START (R128): a pending load begins after the last read of the drain of its set. -/
def loadStart (c : CoreRef) (d : Dev) : Dev :=
  let a := getArr c d
  if a.dump.busy || arrIdle c d || idle (.lmm c) d || a.drains.any (fun j => j.set == shadowNo a || j.out.isSome) ||
      (getSet a (shadowNo a)).quar then d
  else match a.load with
    | some l => if l.running then d else modArr c (fun a => { a with load := some { l with running := true } }) d
    | none => match wantedLoad a with
      | some l => modArr c (fun a => { a with load := some l, prod := a.prod.map fun x => { x with loadAsked := true } }) d
      | none => d

/-- Bytes per element in a load (R88, R131). -/
def loadBytes (l : LoadJob) : Nat := if l.form = 1 then 6 else 4

/-- The set as a load leaves it (R88, R131). -/
def loadedSet (l : LoadJob) (base : Nat) (d : Dev) (s : AccSet) : AccSet :=
  let n := loadBytes l
  let sticky := { s with cells := clearCells s, wrap := false, bad := [] }
  let r := (List.range 16384).foldl (fun s x =>
    let p := elemPos l.quarter x
    let v := memNat (base + n * x) n d
    let old := getCell s p.1 p.2
    let cl : Cell := { old with s := BitVec.ofNat 32 v, c := if l.form = 1 && !(l.fromAcc && l.int) then BitVec.ofNat 16 (v / 2 ^ 32) else 0 }
    let s := setCell p.1 p.2 cl s
    let s := if l.fromAcc && l.int && bit v 32 then { s with wrap := true } else s
    if (List.range n).any fun i => poisonOf (base + n * x + i) d then
      { s with bad := Sparse.mark s.bad (128 * p.1 + p.2) } else s) sticky
  { r with tag := if l.form = 2 || (l.fromAcc && l.int) then 2 else 1 }

/-- LOAD_COMPLETE (R88): every cell of the shadow set is written, its tag set and WRAP cleared. -/
def loadComplete (c : CoreRef) (d : Dev) : Dev :=
  let a := getArr c d
  match a.load with
  | some l =>
    if !l.running || arrIdle c d || idle (.lmm c) d then d
    else
      let base := keyLoc c l.addr
      let d := readEffects base (16384 * loadBytes l) d
      let d := modArr c (fun a => { (modSet (shadowNo a) (loadedSet l base d) a) with load := none }) d
      if l.fromAcc then d
      else
        let f := jobFlag (getCore c d) l.job
        finishJob c l.job (if f.1 then advFlag c f.2 d else d)
  | none => d

/-! ### The slots that name the array (R112, R163, R167) -/

/-- The array is in use at the edge or holds its slots back (R112). -/
def arrayBusy (c : CoreRef) (d : Dev) : Bool := (getArr c d).prod.isSome || idle (.arr c) d

/-- A product's descriptor set takes the slot's BASE (R166). -/
def slotBase (c : CoreRef) (f n : Nat) (b : Option Nat) (d : Dev) : Dev :=
  match b with
  | some v => wr (.fed c) (descOff f n + D_BASE) v d
  | none => d

/-- The single-pass exception of R131 (DEDUCED, log entry 33). -/
def continues (a : ArrSt) (p : Prod) : Bool :=
  !p.start && passCount p == 1 && a.contStore == some p.acc

/-- A set's tag refuses a non-start slice of the other kind (R87). -/
def tagRefuses (tag : Nat) (p : Prod) : Bool := (tag == 1 && prodInt p) || (tag == 2 && !prodInt p)

/-- PRODUCT_WORD (R130): the product at the head of the array's queue comes to the edge; its FA and FB slots wait for the accumulator store of their
own word's MX slot where they overlap it (R173). A product that continues in a set of the
other kind is refused here if earlier slots were still to set that tag when the word started (R87). -/
def productWord (c : CoreRef) (d : Dev) : Dev :=
  if arrayBusy c d then d
  else match headJob 0 (getCore c d) with
    | some j => match j.work with
      | .product p =>
        if !depsClear j (getCore c d) || readsConflict j (storeRegion p) then d
        else if continues (getArr c d) p && tagRefuses (activeSet (getArr c d)).tag p then
          failJob c j.id (illegalWord c j.stream 7 0 d)
        else
          let a := getArr c d
          let x : ProdExec := { job := j.id, stream := j.stream, p := p, cont := continues a p }
          let d := slotBase c 1 p.setB p.baseB (slotBase c 0 p.setA p.baseA (startJob c j.id d))
          modArr c (fun a => { a with prod := some x, fmtA := p.fmtA, fmtB := p.fmtB, spA := p.spA, spB := p.spB,
                                      quarter := p.quarter, contStore := if p.last then none else some p.acc }) d
      | _ => d
    | none => d

/-- A drain form that the tag of the set refuses (R87). -/
def drainRefused (tag form : Nat) : Bool := (tag == 2 && form != 2) || (tag == 1 && form == 2)

/-- The tag that the shadow set has once the drains of it that are pending have cleared it (R87, R89). -/
def shadowTag (a : ArrSt) : Nat :=
  if a.drains.any fun j => j.set == shadowNo a && !j.toAcc && j.dr.clear then 0 else (getSet a (shadowNo a)).tag

/-- STANDALONE_DRAIN (R167): the slot at the head of the array's queue drains the shadow set. A form that the set's tag
refuses is refused here if earlier slots were still to set that tag when the word started (R87). -/
def standaloneDrain (c : CoreRef) (d : Dev) : Dev :=
  let a := getArr c d
  if arrayBusy c d || a.load.isSome then d
  else match headJob 0 (getCore c d) with
    | some j => match j.work with
      | .drain r =>
        if !depsClear j (getCore c d) then d
        else if drainRefused (shadowTag a) r.form then
          failJob c j.id (illegalWord c j.stream 7 3 d)
        else
          let dj : DrainJob := { set := shadowNo a, dr := r, dest := r.addr, toAcc := false, int := false, rows := 128, cols := 128,
                                 quarter := false, age := 11, job := j.id, stream := j.stream }
          modArr c (fun a => { a with drains := a.drains ++ [dj] }) (startJob c j.id d)
      | _ => d
    | none => d

/-- STANDALONE_LOAD (R167): the slot at the head of the array's queue loads the shadow set. -/
def standaloneLoad (c : CoreRef) (d : Dev) : Dev :=
  let a := getArr c d
  if arrayBusy c d || a.load.isSome then d
  else match headJob 0 (getCore c d) with
    | some j => match j.work with
      | .load r =>
        if !depsClear j (getCore c d) then d
        else
          let l : LoadJob := { form := r.form, addr := r.addr, fromAcc := false, int := false, quarter := false,
                               job := j.id, stream := j.stream, running := false }
          modArr c (fun a => { a with load := some l }) (startJob c j.id d)
      | _ => d
    | none => d

/-! ### The commands -/

/-- ARRAY_CYCLE (R124). -/
def execArrayCycle (c : CoreRef) (throttle : Bool) (failed : List CheckFail) (s : State) := s.onDev (arrayCycle c throttle failed)
/-- FEEDER_READ (R524). -/
def execFeederRead (c : CoreRef) (f : Nat) (s : State) := s.onDev (feederRead c f)
/-- FEEDER_BANK_DATA (R524). -/
def execFeederBankData (c : CoreRef) (f : Nat) (s : State) := s.onDev (feederBankData c f)
/-- SWAP (R127). -/
def execSwap (c : CoreRef) (s : State) := s.onDev (swapOp c)
/-- DRAIN_START (R128). -/
def execDrainStart (c : CoreRef) (s : State) := s.onDev (drainStart c)
/-- DRAIN_COMPLETE (R128). -/
def execDrainComplete (c : CoreRef) (s : State) := s.onDev (drainComplete c)
/-- LOAD_START (R128). -/
def execLoadStart (c : CoreRef) (s : State) := s.onDev (loadStart c)
/-- LOAD_COMPLETE (R88). -/
def execLoadComplete (c : CoreRef) (s : State) := s.onDev (loadComplete c)
/-- PRODUCT_WORD (R130). -/
def execProductWord (c : CoreRef) (s : State) := s.onDev (productWord c)
/-- STANDALONE_DRAIN (R167). -/
def execStandaloneDrain (c : CoreRef) (s : State) := s.onDev (standaloneDrain c)
/-- STANDALONE_LOAD (R167). -/
def execStandaloneLoad (c : CoreRef) (s : State) := s.onDev (standaloneLoad c)

end Sys2Proof.Machine
end

