-- ==== Sys2Proof/Machine/Transc.lean ====
section
/-! DEFINITION. The transcendental operations (R169). The spec bounds a result and does not name it: the bound's candidates
are computed from an approximation to 180 bits and more, and a free function of the input chooses among them. -/

namespace Sys2Proof.Machine

/-- The number of fraction bits of the approximations. -/
def prec : Nat := 260

/-- `2 atanh(1 / 3) = ln 2` in units of `2 ^ -prec`. -/
def atanhSeries : Nat → Int → Int → Nat → Int
  | 0, _, _, _ => 0
  | n + 1, z2, p, k => p / (2 * k + 1 : Nat) + atanhSeries n z2 (p * z2 / 2 ^ prec) (k + 1)

def ln2 : Int := 2 * atanhSeries 90 (2 ^ prec / 9) (2 ^ prec / 3) 0

/-- `e ^ r` of a fixed-point value with |r| < 1, by its Taylor series. -/
def expSeries : Nat → Int → Int → Nat → Int
  | 0, _, _, _ => 0
  | n + 1, r, p, k => p + expSeries n r (p * r / 2 ^ prec / (k + 1 : Nat)) (k + 1)

/-- A dyadic value in units of `2 ^ -prec`, cut toward minus infinity. -/
def fixedOf (x : Dy) : Int :=
  if 0 ≤ x.e + prec then x.m * ((2 ^ (x.e + prec).toNat : Nat) : Int)
  else x.m / ((2 ^ (-(x.e + prec)).toNat : Nat) : Int)

/-- An approximation of `e ^ x` for a fixed-point `x`. -/
def expFixed (x : Int) : Dy :=
  let k := x / ln2
  ⟨expSeries 70 (x - k * ln2) (2 ^ prec) 0, k - prec⟩

/-- An approximation of `ln (m 2 ^ e)`: the argument brought to [3/4, 3/2). -/
def lnApprox (m : Nat) (e : Int) : Dy :=
  let l := Nat.log2 m
  let y : Int := fixedOf ⟨m, -(l : Int)⟩
  let big := 3 * (2 : Int) ^ (prec - 1) ≤ y
  let y := if big then y / 2 else y
  let k : Int := e + l + (if big then 1 else 0)
  let z := (y - 2 ^ prec) * 2 ^ prec / (y + 2 ^ prec)
  ⟨2 * atanhSeries 140 (z * z / 2 ^ prec) z 0 + k * ln2, -(prec : Int)⟩

/-- An approximation of `1 / √(m 2 ^ e)`, exact where the root is. -/
def rsqrtApprox (m : Nat) (e : Int) : Dy :=
  let odd := e % 2 = 1
  let m' := if odd then 2 * m else m
  let e' := if odd then e - 1 else e
  ⟨isqrt (2 ^ (2 * prec) / m'), -(prec : Int) - e' / 2⟩

/-- An approximation of `tanh x`. -/
def tanhApprox (x : Dy) : Dy :=
  let c := fixedOf x
  let c := clampInt (-(64 * 2 ^ prec)) (64 * 2 ^ prec) c
  let w := expFixed (2 * c)
  let u := fixedOf w
  ⟨(u - 2 ^ prec) * 2 ^ prec / (u + 2 ^ prec), -(prec : Int)⟩

/-- The finite FP32 codes whose values lie within `bound` units in the last place of an exact value (R169). -/
def nearCodes (bound : Nat) (v : Dy) : List Nat :=
  let neg := decide (v.m < 0)
  let r := fmtFP32.round .trunc v.m.natAbs v.e
  if fmtFP32.overflows r.1 r.2 then []
  else
    let base := fmtFP32.pack false r.1 r.2
    let lim : Dy := ⟨bound, ulpExp base⟩
    let sgn (n : Bool) (c : Nat) : Nat := c + 2 ^ 31 * b2n n
    let cs := ((countFrom (base - 3) 7).filter fun c => decide (c < 0x7F800000)).map (sgn neg) ++
      ((List.range 4).filter fun _ => decide (base < 3)).map (sgn (!neg))
    cs.filter fun c =>
      let diff := (f32 c).dy.add v.neg
      !(lim.lt ⟨diff.m.natAbs, diff.e⟩)

/-- The result: one of the candidates, chosen by a fixed function of the input; a free one where no candidate is stated. -/
def pickNear (op x : Nat) (cs : List Nat) : Nat :=
  match cs with
  | [] => (Config.transcendentalOpen op (BitVec.ofNat 32 x)).toNat
  | c :: _ => (cs[(Config.transcendental op (BitVec.ofNat 32 x)).toNat % cs.length]?).getD c

def openAt (op x : Nat) : Nat := (Config.transcendentalOpen op (BitVec.ofNat 32 x)).toNat

/-- R169, by operation code: EXP 0x10, LOG 0x11, RSQRT 0x12, TANH 0x13. Inputs for which the spec states no result (NaN,
infinities, results beyond the format, logarithms and roots that do not exist) give a free one. -/
def transc (op x : Nat) : Nat :=
  match f32 x with
  | .fin neg m e =>
    if op = 0x10 then
      if Dy.lt ⟨1024, 0⟩ ⟨m, e⟩ then (if neg then pickNear op x (nearCodes 1 ⟨1, -1024⟩) else openAt op x)
      else pickNear op x (nearCodes 1 (expFixed (fixedOf (FVal.fin neg m e).dy)))
    else if op = 0x11 then (if m = 0 || neg then openAt op x else pickNear op x (nearCodes 1 (lnApprox m e)))
    else if op = 0x12 then (if m = 0 || neg then openAt op x else pickNear op x (nearCodes 1 (rsqrtApprox m e)))
    else pickNear op x (nearCodes 2 (tanhApprox (FVal.fin neg m e).dy))
  | _ => openAt op x

end Sys2Proof.Machine
end

