-- ==== Sys2Proof/Machine/Vector.lean ====
section
/-! DEFINITION. The vector unit and the lanes of vector cores (R168, R169), the token-dispatch unit (R345 to R347), the
transposing buffers (R134) and the lane generators' own commands (R142, R143). -/

namespace Sys2Proof.Machine

/-! ### Operand ranges (R168, R523) -/

/-- Bits of an element of CVT's target (R90). -/
def cvtBits : Nat → Nat
  | 0x3 | 0x4 => 16
  | 0x5 | 0x6 => 8
  | _ => 4

/-- The bytes of a VX destination. -/
def vxDstLen (c : CoreRef) (op fmt rows : Nat) : Nat :=
  if op = 0x07 then rows * (nLanes c * cvtBits fmt / 8)
  else if op = 0x08 || op = 0x09 then 4 * rows
  else rows * (4 * nLanes c)

def vxUsesSrc1 (op : Nat) : Bool := op != 0x0A
def vxMask (op : Nat) : Bool := op == 0x07 || op == 0x0A
def vxUsesSrc2 (op : Nat) : Bool := vxMask op || decide (op ≤ 0x06)
def vxSrc2Len (c : CoreRef) (op rows : Nat) : Nat := if vxMask op then rows * (nLanes c / 8) else rows * (4 * nLanes c)

/-- The parameter block of DISPATCH (R345). -/
structure DispParam where
  tokens : Nat
  experts : Nat
  k : Nat
  kr : Nat
  cap : Nat
  reroute : Bool
  ok : Bool
deriving DecidableEq, Repr

def dispParam (c : CoreRef) (a rows : Nat) (d : Dev) : DispParam :=
  let n (o len : Nat) : Nat := lmNat c (a + o) len d
  let p : DispParam := { tokens := n 0 4, experts := n 4 2, k := n 6 1, kr := n 7 1, cap := n 8 4, reroute := n 12 1 == 1, ok := true }
  { p with ok := rows == 1 && decide (1 ≤ p.tokens) && decide (p.tokens ≤ 16777216) && decide (1 ≤ p.experts) &&
      decide (p.experts ≤ 256) && decide (1 ≤ p.k) && decide (p.k ≤ 8) && decide (p.k ≤ p.kr) && decide (p.kr ≤ 8) &&
      decide (p.cap ≤ 16777215) && decide (n 12 1 ≤ 1) && n 13 19 == 0 }

/-- The bytes of the choices and of the table (R345, R346). -/
def dispSrcLen (p : DispParam) : Nat := 2 * p.kr * p.tokens
def dispDstLen (p : DispParam) : Nat := 8 * p.experts + 4 * p.cap * p.experts + 4 * p.k * p.tokens

/-- The local-memory ranges of a VX slot: start, length, and whether written. -/
def vxRanges (c : CoreRef) (op fmt dst src1 src2 rows : Nat) (d : Dev) : List (Nat × Nat × Bool) :=
  if op = 0x20 then
    let p := dispParam c src2 rows d
    (src2, 32, false) :: (if p.ok then [(src1, dispSrcLen p, false), (dst, dispDstLen p, true)] else [])
  else
    [(dst, vxDstLen c op fmt rows, true)] ++
    (if op = 0x04 then [(dst, vxDstLen c op fmt rows, false)] else []) ++
    (if vxUsesSrc1 op then [(src1, rows * (4 * nLanes c), false)] else []) ++
    (if vxUsesSrc2 op then [(src2, vxSrc2Len c op rows, false)] else [])

/-- The tiles of a TRANSPOSE: source rows at their pitch and destination rows at theirs (R134, R170), as bounding ranges. -/
def txRanges (rows cols src dst sp dp : Nat) : List (Nat × Nat × Bool) :=
  [(src, (rows - 1) * sp + 2 * cols, false), (dst, (cols - 1) * dp + 2 * rows, true)]

/-- Every range lies within the core's own local memory (R523). -/
def rangesIn (c : CoreRef) (rs : List (Nat × Nat × Bool)) : Bool := rs.all fun r => decide (r.1 + r.2.1 ≤ lmSize c)

/-- A poisoned byte that a slot would read, if any. -/
def rangesPoison (c : CoreRef) (rs : List (Nat × Nat × Bool)) (d : Dev) : Option Nat :=
  rs.findSome? fun r => if r.2.2 then none else poisonKey (keyLoc c r.1) r.2.1 d

def readRanges (c : CoreRef) (rs : List (Nat × Nat × Bool)) (d : Dev) : Dev :=
  rs.foldl (fun d r => if r.2.2 then d else readEffects (keyLoc c r.1) r.2.1 d) d

/-! ### Elementwise results -/

/-- An FP32 operand at row `r`, lane `l`. -/
def vxIn (c : CoreRef) (a r l : Nat) (d : Dev) : Nat := lmNat c (a + 4 * (nLanes c * r + l)) 4 d

/-- A lane's mask bit (R168). -/
def vxBit (c : CoreRef) (a r l : Nat) (d : Dev) : Bool := bit (lmNat c (a + r * (nLanes c / 8) + l / 8) 1 d) (l % 8)

/-- The result of a lane for the operations without a mask (R169). -/
def vxLane (op x y z : Nat) : Nat :=
  match op with
  | 0x01 => fAdd x y
  | 0x02 => fSub x y
  | 0x03 => fMul x y
  | 0x04 => fFma x y z
  | 0x05 => fMax x y
  | 0x06 => fMin x y
  | _ => transc op x

/-- Rows of results, every lane written. -/
def vxMap (c : CoreRef) (op dst src1 src2 rows : Nat) (d : Dev) : Dev :=
  let out := (List.range rows).flatMap fun r => (List.range (nLanes c)).flatMap fun l =>
    toBytes 4 (vxLane op (vxIn c src1 r l d) (vxIn c src2 r l d) (vxIn c dst r l d))
  memPut (keyLoc c dst) out d

/-- The fixed binary tree of RSUM: neighbours pair by pair, level by level. -/
def pairUp (f : Nat → Nat → Nat) : List Nat → List Nat
  | a :: b :: t => f a b :: pairUp f t
  | l => l

def treeFold (f : Nat → Nat → Nat) : Nat → List Nat → Nat
  | 0, l => l.headD 0
  | n + 1, l => treeFold f n (pairUp f l)

/-- One result per row (RSUM, RMAX) (DEDUCED, log entry 38). -/
def vxRows (f : Nat → Nat → Nat) (c : CoreRef) (dst src1 rows : Nat) (d : Dev) : Dev :=
  let out := (List.range rows).flatMap fun r => toBytes 4 (treeFold f 10 ((List.range (nLanes c)).map fun l => vxIn c src1 r l d))
  memPut (keyLoc c dst) out d

/-- How many draws lane `l` has taken before row `r`, or in free-running mode the rows passed. -/
def drawsBefore (c : CoreRef) (mask r l : Nat) (d : Dev) : Nat :=
  if freeRunning c d then r else ((List.range r).filter fun q => vxBit c mask q l d).length

/-- The generators move on by the draws of a masked operation (R143, R144). -/
def vxDraws (c : CoreRef) (mask rows : Nat) (d : Dev) : Dev :=
  let n (l : Nat) : Nat := ((List.range rows).filter fun q => vxBit c mask q l d).length
  let total := ((List.range (nLanes c)).map n).sum
  let d' := if freeRunning c d then d
    else modCore c (fun x => (List.range (nLanes c)).foldl (fun x l => if n l = 0 then x else ctrAdd l (n l) x) x) d
  drawsReg c total d'

/-- Runs of consecutive bytes that are written: the place of each in the list, and its bytes. -/
def byteRuns : Nat → List (Option Byte) → List (Nat × List Byte)
  | _, [] => []
  | i, none :: t => byteRuns (i + 1) t
  | i, some b :: t => match byteRuns (i + 1) t with
    | (j, bs) :: rest => if j = i + 1 then (i, b :: bs) :: rest else (i, [b]) :: (j, bs) :: rest
    | [] => [(i, [b])]

/-- Bytes stored at `k` where they are given, each run in one access, so that a granule written whole is clean (R233). -/
def storeRuns (k : Nat) (bs : List (Option Byte)) (d : Dev) : Dev :=
  (byteRuns 0 bs).foldl (fun d r => memPut (k + r.1) r.2 d) d

/-- RNG: one 32-bit draw per unmasked lane. -/
def vxRng (c : CoreRef) (dst mask rows : Nat) (d : Dev) : Dev :=
  let x := getCore c d
  let d' := storeRuns (keyLoc c dst) ((List.range rows).flatMap fun r => (List.range (nLanes c)).flatMap fun l =>
    if vxBit c mask r l d then (toBytes 4 (draw x l (drawsBefore c mask r l d) % 2 ^ 32)).map some
    else List.replicate 4 none) d
  vxDraws c mask rows d'

/-- The saturation settings of CVT (R92, R149). -/
def cvtSat4 (c : CoreRef) (d : Dev) : Bool := if isMatrix c then rdBit (.arr c) ARR_CFG 2 d else rdBit (.seq c) VCR_CFG 2 d
def cvtSat5 (c : CoreRef) (d : Dev) : Bool := if isMatrix c then rdBit (.arr c) ARR_CFG 3 d else rdBit (.seq c) VCR_CFG 3 d

/-- One converted element. -/
def cvtCode (c : CoreRef) (fmt : Nat) (stoch : Bool) (src mask r l : Nat) (d : Dev) : Nat :=
  let rnd := if stoch then Rnd.stoch (draw (getCore c d) l (drawsBefore c mask r l d) % 65536) else Rnd.rne
  convElem (elemForm fmt) (cvtSat4 c d) (cvtSat5 c d) rnd (f32 (vxIn c src r l d))

/-- A half byte of local memory written, the other half kept. -/
def putNibble (k : Nat) (high : Bool) (v : Nat) (d : Dev) : Dev :=
  memPutNat k 1 (putBits (memRd d k).toNat (if high then 4 else 0) 4 v) d

/-- The bytes of a row that CVT writes whole: unmasked lanes at the target width, FP4 lanes in pairs (R168, R169). -/
def cvtRow (c : CoreRef) (fmt : Nat) (stoch : Bool) (src mask r : Nat) (d : Dev) : List (Option Byte) :=
  let w := cvtBits fmt
  let code (l : Nat) : Nat := cvtCode c fmt stoch src mask r l d
  if w = 4 then (List.range (nLanes c / 2)).map fun i =>
    if vxBit c mask r (2 * i) d && vxBit c mask r (2 * i + 1) d then
      some (BitVec.ofNat 8 (code (2 * i) % 16 + 16 * (code (2 * i + 1) % 16)))
    else none
  else (List.range (nLanes c)).flatMap fun l =>
    if vxBit c mask r l d then (toBytes (w / 8) (code l)).map some else List.replicate (w / 8) none

/-- FP4 lanes whose neighbour in the byte is masked: each keeps the other half. -/
def cvtHalves (c : CoreRef) (fmt : Nat) (stoch : Bool) (dst src mask rows : Nat) (d e : Dev) : Dev :=
  (List.range rows).foldl (fun e r => (List.range (nLanes c)).foldl (fun e l =>
    if vxBit c mask r l d && !vxBit c mask r (if l % 2 = 0 then l + 1 else l - 1) d then
      putNibble (keyLoc c (dst + r * (nLanes c / 2) + l / 2)) (l % 2 == 1) (cvtCode c fmt stoch src mask r l d) e
    else e) e) e

/-- CVT: unmasked lanes written at the target width (R168, R169). -/
def vxCvt (c : CoreRef) (fmt rnd dst src mask rows : Nat) (d : Dev) : Dev :=
  let e := storeRuns (keyLoc c dst) ((List.range rows).flatMap fun r => cvtRow c fmt (rnd == 1) src mask r d) d
  let e := if cvtBits fmt = 4 then cvtHalves c fmt (rnd == 1) dst src mask rows d e else e
  if rnd = 1 then vxDraws c mask rows e else e

/-! ### DISPATCH (R345 to R347) -/

/-- The tables as they fill: counts, losses, list entries and return entries, newest first. -/
structure Disp where
  count : List Nat
  lost : List Nat
  lists : List (Nat × Nat × Nat) := []
  rets : List (Nat × Nat) := []

def Disp.cnt (s : Disp) (e : Nat) : Nat := (s.count[e]?).getD 0

/-- `place(t, r, e, rank)`. -/
def Disp.place (k t r e rank : Nat) (s : Disp) : Disp :=
  { s with lists := (e, s.cnt e, t + rank * 2 ^ 24) :: s.lists, rets := (k * t + r, e + s.cnt e * 256) :: s.rets,
           count := modNth (· + 1) e s.count }

/-- The search for another expert among the spare ranks: what it settles on, and the next spare rank. -/
def Disp.spare (p : DispParam) (choice : Nat → Nat) (held : List Nat) (s : Disp) : Nat → Nat → Option (Nat × Nat) × Nat
  | 0, sp => (none, sp)
  | fuel + 1, sp =>
    if p.kr ≤ sp then (none, sp)
    else
      let e := choice sp
      if decide (e < p.experts) && !held.contains e && decide (s.cnt e < p.cap) then (some (e, sp), sp + 1)
      else Disp.spare p choice held s fuel (sp + 1)

/-- One active choice of a token. -/
def Disp.rank (p : DispParam) (choice : Nat → Nat) (t : Nat) (st : Disp × List Nat × Nat) (r : Nat) : Disp × List Nat × Nat :=
  let (s, held, sp) := st
  let e := choice r
  if p.experts ≤ e || held.contains e then ({ s with rets := (p.k * t + r, 0xFFFFFFFF) :: s.rets }, held, sp)
  else if s.cnt e < p.cap then (s.place p.k t r e r, held ++ [e], sp)
  else
    let s := { s with lost := modNth (· + 1) e s.lost }
    if p.reroute then
      match s.spare p choice held 8 sp with
      | (some (e2, rk), sp) => (s.place p.k t r e2 rk, held ++ [e2], sp)
      | (none, sp) => ({ s with rets := (p.k * t + r, 0xFFFFFFFF) :: s.rets }, held, sp)
    else ({ s with rets := (p.k * t + r, 0xFFFFFFFF) :: s.rets }, held, sp)

def Disp.token (p : DispParam) (choices : Nat → Nat → Nat) (s : Disp) (t : Nat) : Disp :=
  ((List.range p.k).foldl (Disp.rank p (choices t) t) (s, [], p.k)).1

def dispRun (p : DispParam) (choices : Nat → Nat → Nat) : Disp :=
  (List.range p.tokens).foldl (Disp.token p choices)
    { count := List.replicate p.experts 0, lost := List.replicate p.experts 0 }

/-- The table written at DST (R346); list entries beyond a count stay unwritten. -/
def dispWrite (c : CoreRef) (dst : Nat) (p : DispParam) (s : Disp) (d : Dev) : Dev :=
  let d := (List.range p.experts).foldl (fun d e =>
    memPutNat (keyLoc c (dst + 8 * e)) 8 (s.cnt e + (s.lost[e]?).getD 0 * 2 ^ 32) d) d
  let d := s.lists.foldl (fun d x => memPutNat (keyLoc c (dst + 8 * p.experts + 4 * (p.cap * x.1 + x.2.1))) 4 x.2.2 d) d
  s.rets.foldl (fun d x => memPutNat (keyLoc c (dst + 8 * p.experts + 4 * p.cap * p.experts + 4 * x.1)) 4 x.2 d) d

/-- DISPATCH's own effect, its parameters valid. -/
def vxDispatch (c : CoreRef) (dst src : Nat) (p : DispParam) (d : Dev) : Dev :=
  dispWrite c dst p (dispRun p fun t r => lmNat c (src + 2 * (p.kr * t + r)) 2 d) d

/-! ### The head slot of the vector unit -/

/-- The lanes' own block is in its safe state (R150). On a vector core started slots run to completion (R191). -/
def lanesHeld (c : CoreRef) (d : Dev) : Bool := isMatrix c && idle (.vec c) d

/-- What a VX operation writes. -/
def vxEffect (c : CoreRef) (op fmt rnd dst src1 src2 rows : Nat) (d : Dev) : Dev :=
  if op = 0x07 then vxCvt c fmt rnd dst src1 src2 rows d
  else if op = 0x08 then vxRows fAdd c dst src1 rows d
  else if op = 0x09 then vxRows fMax c dst src1 rows d
  else if op = 0x0A then vxRng c dst src2 rows d
  else if op = 0x20 then vxDispatch c dst src1 (dispParam c src2 rows d) d
  else vxMap c op dst src1 src2 rows d

/-- The parameter block of DISPATCH, which has to be read before the other ranges are known (R345). -/
def paramBad (c : CoreRef) (op src2 : Nat) (d : Dev) : Bool :=
  op == 0x20 && rangesIn c [(src2, 32, false)] && (rangesPoison c [(src2, 32, false)] (readRanges c [(src2, 32, false)] d)).isSome

/-- The local-memory ranges that a slot is checked against: the parameter block alone while it cannot be used (R236). -/
def vxChecked (c : CoreRef) (op fmt dst src1 src2 rows : Nat) (d : Dev) : List (Nat × Nat × Bool) :=
  if paramBad c op src2 d then [(src2, 32, false)] else vxRanges c op fmt dst src1 src2 rows d

/-- The VX slot at the head of its unit's queue executes, if it is operation `op` (R162, R169): a range beyond local memory
is refused (R523), poisoned operands hold it (R236), and a parameter block that R345 refuses stops the stream as R186 does. -/
def vxRun (op : Nat) (c : CoreRef) (d : Dev) : Dev :=
  let x := getCore c d
  match headJob 1 x with
  | some j => match j.work with
    | .vx o fmt rnd dst src1 src2 rows =>
      if o != op || !depsClear j x || lanesHeld c d || idle (.lmm c) d ||
          x.jobs.any (fun k => unitOf k.work == 1 && decide (k.phase = .running)) then d
      else
        let rs := vxChecked c op fmt dst src1 src2 rows d
        if !rangesIn c rs then finishJob c j.id (slotFault c j.id d)
        else
          let d := readRanges c rs d
          match rangesPoison c rs d with
          | some k => lmmPoisonUse c (keyAddr k d) (startJob c j.id d)
          | none =>
            if op = 0x20 && !(dispParam c src2 rows d).ok then
              finishJob c j.id (dropLater c j (illegalWord c j.stream 4 4 d))
            else finishJob c j.id (vxEffect c op fmt rnd dst src1 src2 rows d)
    | _ => d
  | none => d

/-! ### Transposing buffers (R134) -/

/-- The head slot of buffer `b` begins: its ranges are checked as it starts (R523). -/
def mvTranspose (c : CoreRef) (d : Dev) : Dev :=
  let x := getCore c d
  let try_ (b : Nat) : Option Job := match headJob (3 + b) x with
    | some j => if depsClear j x && !(x.jobs.any fun k => unitOf k.work == 3 + b && decide (k.phase = .running)) then some j else none
    | none => none
  match (try_ 0).orElse (fun _ => try_ 1) with
  | some j => match j.work with
    | .transpose _ rows cols src dst sp dp _ _ =>
      if idle (.txb c) d || idle (.lmm c) d then d
      else if !rangesIn c (txRanges rows cols src dst sp dp) then finishJob c j.id (slotFault c j.id d)
      else startJob c j.id d
    | _ => d
  | none => d

/-- TRANSPOSE_TILE_COMPLETE: the transpose is written, the flag advances, the buffer counts its tile. Poison goes with the
data (R234). A tile under way completes in the safe state too, which stops the buffers at a tile boundary (R150). -/
def transposeComplete (c : CoreRef) (b : Nat) (d : Dev) : Dev :=
  let x := getCore c d
  match x.jobs.find? fun k => unitOf k.work == 3 + b && decide (k.phase = .running) with
  | some j => match j.work with
    | .transpose _ rows cols src dst sp dp fe f =>
      if (idle (.txb c) d && !isSafe (.txb c) d) || idle (.lmm c) d then d
      else
        let d := readRanges c ((List.range rows).map fun i => (src + i * sp, 2 * cols, false)) d
        let out := (List.range cols).map fun j => (List.range rows).flatMap fun i =>
          (List.range 2).map fun b => let k := keyLoc c (src + i * sp + 2 * j + b); (memRd d k, poisonOf k d)
        let d := ((List.range cols).zip out).foldl (fun d p =>
          memWrite (keyLoc c (dst + p.1 * dp)) (p.2.map (·.1)) (p.2.map (·.2)) d) d
        let d := bump (.txb c) (if b = 0 then TXB_TILES0 else TXB_TILES1) 1 d
        finishJob c j.id (if fe then advFlag c f d else d)
    | _ => d
  | none => d

/-- FREE_RUNNING_ADVANCE (R143): one core clock cycle in free-running mode. -/
def freeRunningAdvance (c : CoreRef) (d : Dev) : Dev :=
  if freeRunning c d then modCore c (fun x => { x with ctrAll := (x.ctrAll + 1) % 2 ^ 64 }) d else d

/-- The seed applied (R142): every key from the seed, every counter 0 (DEDUCED, log entry 39). -/
def rngSeedOp (c : CoreRef) (seed : Nat) (d : Dev) : Dev :=
  modCore c (fun x => { x with seed := some seed, ctrAll := 0, ctr := [] }) d

/-! ### The commands -/

/-- VX_ADD (R169). -/
def execVxAdd (c : CoreRef) (s : State) := s.onDev (vxRun 0x01 c)
/-- VX_SUB (R169). -/
def execVxSub (c : CoreRef) (s : State) := s.onDev (vxRun 0x02 c)
/-- VX_MUL (R169). -/
def execVxMul (c : CoreRef) (s : State) := s.onDev (vxRun 0x03 c)
/-- VX_FMA (R169). -/
def execVxFma (c : CoreRef) (s : State) := s.onDev (vxRun 0x04 c)
/-- VX_MAX (R169). -/
def execVxMax (c : CoreRef) (s : State) := s.onDev (vxRun 0x05 c)
/-- VX_MIN (R169). -/
def execVxMin (c : CoreRef) (s : State) := s.onDev (vxRun 0x06 c)
/-- VX_CVT (R169). -/
def execVxCvt (c : CoreRef) (s : State) := s.onDev (vxRun 0x07 c)
/-- VX_RSUM (R169). -/
def execVxRsum (c : CoreRef) (s : State) := s.onDev (vxRun 0x08 c)
/-- VX_RMAX (R169). -/
def execVxRmax (c : CoreRef) (s : State) := s.onDev (vxRun 0x09 c)
/-- VX_RNG (R169). -/
def execVxRng (c : CoreRef) (s : State) := s.onDev (vxRun 0x0A c)
/-- VX_EXP (R169). -/
def execVxExp (c : CoreRef) (s : State) := s.onDev (vxRun 0x10 c)
/-- VX_LOG (R169). -/
def execVxLog (c : CoreRef) (s : State) := s.onDev (vxRun 0x11 c)
/-- VX_RSQRT (R169). -/
def execVxRsqrt (c : CoreRef) (s : State) := s.onDev (vxRun 0x12 c)
/-- VX_TANH (R169). -/
def execVxTanh (c : CoreRef) (s : State) := s.onDev (vxRun 0x13 c)
/-- DISPATCH (R347). -/
def execDispatch (c : CoreRef) (s : State) := s.onDev (vxRun 0x20 c)
/-- MV_TRANSPOSE (R134). -/
def execMvTranspose (c : CoreRef) (s : State) := s.onDev (mvTranspose c)
/-- TRANSPOSE_TILE_COMPLETE (R134). -/
def execTransposeTileComplete (c : CoreRef) (buf : Nat) (s : State) := s.onDev (transposeComplete c buf)
/-- FREE_RUNNING_ADVANCE (R143). -/
def execFreeRunningAdvance (c : CoreRef) (s : State) := s.onDev (freeRunningAdvance c)

end Sys2Proof.Machine
end

