-- ==== Sys2Proof/Machine/Words.lean ====
section
/-! DEFINITION. Long words: their format, the slots' fields, the refusals of R185, and the regions that a slot registers
(R159 to R171, R172, R181 to R183, R238 to R240). -/

namespace Sys2Proof.Machine

/-! ### The format (R159, R160) -/

/-- A long word taken apart: slot numbers 0 MX to 7 SC with the slots' bits. -/
structure LongWord where
  hdr : Nat
  tag : Option Nat
  slots : List (Nat × Nat)
deriving DecidableEq, Repr

def slotBytes (i : Nat) : Nat := if i ≤ 3 then 8 else if i ≤ 5 then 12 else 4
def wMask (hdr : Nat) : Nat := bits hdr 0 8
def wTagged (hdr : Nat) : Bool := bit hdr 8
/-- The stated length in bytes. -/
def wLength (hdr : Nat) : Nat := 4 * (bits hdr 11 5 + 1)

/-- The slots present, in slot order. -/
def wSlots (hdr : Nat) : List Nat := (List.range 8).filter fun i => bit (wMask hdr) i

/-- The content length (R160). -/
def wContent (hdr : Nat) : Nat := ceilDiv (2 + 2 * b2n (wTagged hdr) + ((wSlots hdr).map slotBytes).sum) 4 * 4

/-- The slots' bits, from byte `p` of the word on. -/
def takeSlots : List Nat → List Byte → List (Nat × Nat)
  | [], _ => []
  | i :: is, bs => (i, ofBytes (bs.take (slotBytes i))) :: takeSlots is (bs.drop (slotBytes i))

/-- A word from its bytes. -/
def parseWord (bs : List Byte) : LongWord :=
  let hdr := ofBytes (bs.take 2)
  { hdr := hdr, tag := if wTagged hdr then some (ofBytes ((bs.drop 2).take 2)) else none,
    slots := takeSlots (wSlots hdr) (bs.drop (2 + 2 * b2n (wTagged hdr))) }

def slotOf (w : LongWord) (i : Nat) : Option Nat := (w.slots.find? fun s => s.1 == i).map (·.2)

/-! ### Fields -/

/-- Bits that a slot's layout leaves reserved (R161, R166 to R171, R177). -/
def reservedBits (i v : Nat) : Bool :=
  match i with
  | 1 => bits v 42 22 != 0
  | 2 => bits v 27 37 != 0
  | 3 => bits v 57 7 != 0
  | 5 => match bits v 0 4 with
    | 1 => bits v 13 83 != 0
    | 2 | 3 => bits v 79 17 != 0
    | 4 => bits v 94 2 != 0
    | _ => false
  | 7 => match bits v 0 4 with
    | 1 => bits v 15 17 != 0
    | 2 | 3 => bits v 28 4 != 0
    | 6 => bits v 16 16 != 0
    | 8 => bits v 4 4 != 0
    | _ => false
  | _ => false

/-- The slots a core type accepts (R151) (DEDUCED, log entry 41). -/
def accepts (c : CoreRef) (i : Nat) : Bool :=
  if isMatrix c then true else if isVector c then decide (4 ≤ i) else decide (5 ≤ i)

/-- VX operations of a core type (R169). -/
def vxListed (c : CoreRef) (op : Nat) : Bool :=
  (decide (1 ≤ op) && decide (op ≤ 0x0A)) ||
  (isVector c && (decide (0x10 ≤ op) && decide (op ≤ 0x13) || op == 0x20))

/-- Reserved or unlisted opcode, FN or field value (cause 4 of R185). -/
def badValue (c : CoreRef) (i v : Nat) : Bool :=
  match i with
  | 3 => decide (2 ≤ bits v 0 2) || bits v 6 2 == 3 || decide (0xA < bits v 2 4)
  | 4 =>
    let op := bits v 0 8
    !vxListed c op || decide (1 < bits v 12 2) || (bits v 12 2 == 1 && op != 7) ||
    (if op = 7 then !([3, 4, 5, 6, 0xA].contains (bits v 8 4)) else bits v 8 4 != 0)
  | 5 => match bits v 0 4 with
    | 1 | 2 => false
    | 3 => bit v 78
    | 4 => !isMatrix c
    | _ => true
  | 6 => bits v 0 3 == 0 || bits v 0 3 == 7
  | 7 => match bits v 0 4 with
    | 6 => bits v 12 4 == 0xF
    | 0 | 0xA | 0xB | 0xC | 0xD | 0xE | 0xF => true
    | _ => false
  | _ => false

/-- The DR slot (R167). -/
def drOf (v : Nat) : DrSlot :=
  { op := bits v 0 2, form := bits v 2 4, rnd := bits v 6 2, clear := bit v 8, colblk := bit v 9, trk := bits v 10 6,
    record := bit v 16, advance := bit v 17, apply := bit v 18, addr := bits v 19 23, flag := bits v 42 14, flagEn := bit v 56 }

/-- A product word's slots (R164, R166); `m` is taken as given. -/
def prodOf (mx fa fb dr m : Nat) : Prod :=
  { fmtA := bits mx 0 4, fmtB := bits mx 4 4, m := m, n := bits mx 20 12 + 1, k := bits mx 32 24 + 1,
    start := bit mx 56, last := bit mx 57, quarter := bit mx 58, map := bits mx 59 2, spA := bit mx 61, spB := bit mx 62,
    setA := bits fa 0 3, baseA := if bit fa 3 then some (bits fa 4 23) else none,
    setB := bits fb 0 3, baseB := if bit fb 3 then some (bits fb 4 23) else none,
    acc := bits fa 27 15 * 256, dr := drOf dr }

/-- The rows of M that the MX slot states. -/
def mxM (mx : Nat) : Nat := bits mx 8 12 + 1
def mxDyn (mx : Nat) : Bool := bit mx 63

/-- An SC PRED of the word (R181): SLOTS, SENSE and REG. -/
structure Pred where
  slots : Nat
  sense : Bool
  reg : Nat
deriving DecidableEq, Repr

def predOf (w : LongWord) : Option Pred :=
  match slotOf w 7 with
  | some v => if bits v 0 4 = 1 then some ⟨bits v 4 6, bit v 10, bits v 11 4⟩ else none
  | none => none

/-! ### S registers -/

def sreg (c : CoreRef) (st r : Nat) (d : Dev) : Nat := rdB64 (.seq c) (sOff st S_SREG_LO) r d
def setSreg (c : CoreRef) (st r v : Nat) (d : Dev) : Dev := wrB64 (.seq c) (sOff st S_SREG_LO) r (v % 2 ^ 64) d

/-- The predicate (R181). -/
def predTrue (c : CoreRef) (st : Nat) (p : Pred) (d : Dev) : Bool :=
  (sreg c st p.reg d % 2 ^ 32 == 0) == p.sense

/-- A slot's work runs: it is not governed, or its predicate is true. -/
def slotRuns (c : CoreRef) (st : Nat) (w : LongWord) (i : Nat) (d : Dev) : Bool :=
  match predOf w with
  | some p => if i ≤ 5 && bit p.slots i then predTrue c st p d else true
  | none => true

/-! ### Refusals (R185) -/

/-- An SY update that names the stitch flag of a framed context (R200). -/
def syStitch (c : CoreRef) (v : Nat) (d : Dev) : Bool :=
  decide (2 ≤ bits v 0 3) && decide (bits v 0 3 ≤ 5) && bits v 3 14 == stitchFlag && framed (coreCtx c d) d

/-- The descriptor set of a feeder with the BASE that a slot names. -/
def slotDesc (c : CoreRef) (f n : Nat) (base : Option Nat) (d : Dev) : Desc :=
  let ds := readDesc c f n d
  match base with | some b => { ds with base := b } | none => ds

/-- Bytes of a load form (R87, R88); none for a form that no load has. -/
def loadSize (form : Nat) : Option Nat :=
  match form with | 0 => some 65536 | 1 => some 98304 | 2 => some 65536 | _ => none

/-- Array slots wait or run that may still change the sets' tags, so that R87's checks wait for them. -/
def arrPending (c : CoreRef) (d : Dev) : Bool :=
  let x := getCore c d
  x.arr.prod.isSome || x.arr.load.isSome || x.jobs.any fun j => unitOf j.work == 0 && decide (j.phase ≠ .done)

/-- The tag of the set that a product continues in, where the product before it in the array's order named the same accumulator
store without LAST (R131), as the word starts: that product's kind while it is still to run, unless OUT mode may skip it; else
the active set's tag (R87). -/
def contTag (c : CoreRef) (acc : Nat) (d : Dev) : Nat :=
  let x := getCore c d
  match (x.jobs.filterMap fun j => match j.work with
      | .product p => if decide (j.phase = .queued) then some p else none | _ => none).getLast? with
  | some p => if p.last || p.acc != acc || p.map == 1 then 0 else if prodInt p then 2 else 1
  | none =>
    if x.arr.contStore != some acc then 0
    else match x.arr.prod with
      | some y => if y.p.map = 1 then 0 else if prodInt y.p then 2 else 1
      | none => (activeSet x.arr).tag

/-- Slots refused by an array rule (cause 7): R72, R83, R87, R126, R131, R133. -/
def arrayRules (c : CoreRef) (w : LongWord) (d : Dev) : List (Nat × Nat) :=
  match slotOf w 0, slotOf w 1, slotOf w 2, slotOf w 3 with
  | some mx, some fa, some fb, some dr =>
    let p := prodOf mx fa fb dr (mxM mx)
    (if !pairOk p.fmtA p.fmtB || (p.spA && p.spB) || (prodSparse p && (p.fmtA == 9 || p.quarter)) then [(7, 0)] else []) ++
    (if !p.start && passCount p == 1 && tagRefuses (contTag c p.acc d) p then [(7, 0)] else []) ++
    (if p.last && (prodInt p != (p.dr.form == 2) || decide (lmSize c < p.dr.addr + passCount p * formSize p.dr.form)) then [(7, 3)] else []) ++
    (if (!p.start || !p.last) && decide (0x800000 < p.acc + passCount p * 98304) then [(7, 1)] else [])
  | none, _, _, some dr =>
    let r := drOf dr
    if r.op = 1 then
      match loadSize r.form with
      | some n => if lmSize c < r.addr + n then [(7, 3)] else []
      | none => [(7, 3)]
    else
      if (!arrPending c d && drainRefused (shadowTag (getArr c d)) r.form) || decide (lmSize c < r.addr + formSize r.form) then [(7, 3)] else []
  | _, _, _, _ => []

/-- A product that disagrees with its descriptor sets (cause 6). -/
def descRules (c : CoreRef) (w : LongWord) (d : Dev) : List (Nat × Nat) :=
  match slotOf w 0, slotOf w 1, slotOf w 2 with
  | some mx, some fa, some fb =>
    let da := readDesc c 0 (bits fa 0 3) d
    let db := readDesc c 1 (bits fb 0 3) d
    (if da.fmt != bits mx 0 4 || da.sparse != bit mx 61 || !descOk da then [(6, 1)] else []) ++
    (if db.fmt != bits mx 4 4 || db.sparse != bit mx 62 || !descOk db then [(6, 2)] else [])
  | _, _, _ => []

/-- Inconsistent predication or DYN_M (cause 8: R181, R183). -/
def predRules (w : LongWord) : List (Nat × Nat) :=
  match slotOf w 0 with
  | some mx =>
    (match predOf w with
     | some p => if bits p.slots 0 4 != 0 && bits p.slots 0 4 != 15 then [(8, 7)] else []
     | none => []) ++
    (if mxDyn mx && (match predOf w with | some p => p.sense | none => true) then [(8, 0)] else [])
  | none => []

/-- Every cause that refuses the word, with its slot (DEDUCED, log entry 40). -/
def wordRefusals (c : CoreRef) (w : LongWord) (d : Dev) : List (Nat × Nat) :=
  (if bits w.hdr 9 2 != 0 then [(1, 15)] else []) ++
  (w.slots.filterMap fun s => if reservedBits s.1 s.2 then some (1, s.1) else none) ++
  (if wLength w.hdr < wContent w.hdr then [(2, 15)] else []) ++
  (w.slots.filterMap fun s => if accepts c s.1 then none else some (3, s.1)) ++
  (w.slots.filterMap fun s => if badValue c s.1 s.2 then some (4, s.1) else none) ++
  (match slotOf w 6 with | some v => if syStitch c v d then [(4, 6)] else [] | none => []) ++
  (if (slotOf w 0).isSome then
     (if (slotOf w 1).isSome && (slotOf w 2).isSome && (slotOf w 3).isSome then [] else [(5, 0)])
   else if (slotOf w 1).isSome then [(5, 1)] else if (slotOf w 2).isSome then [(5, 2)] else []) ++
  (if isMatrix c then descRules c w d ++ arrayRules c w d else []) ++
  predRules w ++
  (match slotOf w 5 with | some v => if bits v 0 4 == 4 && bits v 92 2 != 1 then [(9, 5)] else [] | none => [])

/-- The lowest cause, and of its slots the first. -/
def firstRefusal (l : List (Nat × Nat)) : Option (Nat × Nat) :=
  l.foldl (fun b x => match b with
    | some y => if x.1 < y.1 then some x else some y
    | none => some x) none

/-! ### Stream descriptors (R238 to R240) -/

/-- A descriptor from its 128 bytes (R239). -/
def parseDesc (bs : List Byte) : StrDesc :=
  let q (o : Nat) : Nat := ofBytes ((bs.drop o).take 8)
  let w2 := q 0x10
  let w3 := q 0x18
  let w6 := q 0x60
  let strides (o : Nat) : List Int := (List.range 4).map fun i => signed 48 (q (o + 8 * i))
  let hi (o : Nat) : Bool := (List.range 4).any fun i => bits (q (o + 8 * i)) 48 16 != 0
  { src := q 0, dst := q 8, run := bits w2 0 24 + 1,
    cnt := [bits w2 24 16 + 1, bits w2 40 16 + 1, bits w3 0 16 + 1, bits w3 16 16 + 1],
    flag := bits w3 32 14, flagEn := bit w3 46, notify := bit w3 47, flow := bits w3 48 14,
    sstr := strides 0x20, dstr := strides 0x40, op := bits w6 0 2, atype := bits w6 2 4, vmode := bits w6 6 2, vrec := bits w6 8 6,
    bad := bits w2 56 8 != 0 || bits w3 62 2 != 0 || hi 0x20 || hi 0x40 || bits w6 14 50 != 0 || q 0x68 != 0 || q 0x70 != 0 ||
      q 0x78 != 0 || decide (2 ≤ bits w6 0 2) || decide (5 ≤ bits w6 2 4) && bits w6 0 2 == 1 || bits w6 6 2 == 3 }

/-- The lowest and highest byte addresses of a side, as exact sums (R240). -/
def strRange (base run : Nat) (cnt : List Nat) (strs : List Int) : Int × Int :=
  let offs := (cnt.zip strs).map fun p => ((p.1 : Int) - 1) * p.2
  ((base : Int) + (offs.filter (decide <| · < 0)).sum, (base : Int) + (offs.filter (decide <| 0 < ·)).sum + (run : Int) - 1)

def srcRange (s : StrDesc) : Int × Int := strRange s.src s.run s.cnt s.sstr
def dstRange (s : StrDesc) : Int × Int := strRange s.dst s.run s.cnt s.dstr

/-- The stream-engine block that an MV slot of a core names. -/
def strBlk (c : CoreRef) (e : Nat) : Blk := .str c.die c.cl e

/-- The read of a descriptor is held: its table lies in a local memory in its safe state (R250). -/
def descHeld (c : CoreRef) (w : LongWord) (d : Dev) : Bool :=
  match slotOf w 5 with
  | some v =>
    bits v 0 4 == 1 && (match spotOf (coreCtx c d) (rd64 (strBlk c (bits v 4 1)) STR_DTAB_LO d) d with
      | .mem k => (match keyBlk k d with | .lmm l => isSafe (.lmm l) d && !inReset (.lmm l) d | _ => false)
      | _ => false)
  | none => false

/-- The descriptor as the sequencer reads it while the word starts (R238): none where the table address is misaligned or
outside spaces 000 and 010 of the device, or where the read faults (its memory is in reset, fenced or refuses it: R250, R297) or
returns poison. -/
def readStrDesc (c : CoreRef) (e desc : Nat) (d : Dev) : Option StrDesc × Dev :=
  let t := rd64 (strBlk c e) STR_DTAB_LO d
  let a := t + 128 * desc
  if t % 32768 != 0 || !rangeOk a 128 d || gDev t != ownDev d || (gSpace t != 0 && gSpace t != 2) then (none, d)
  else match spotOf (coreCtx c d) a d with
    | .mem k =>
      let b := keyBlk k d
      if inReset b d || isSafe b d || fenced b d then (none, d)
      else
        let d := readEffects k 128 d
        if anyPoison k 128 d then (none, d) else (some (parseDesc (memBytes k 128 d)), d)
    | _ => (none, d)

/-! ### Regions (R172) -/

/-- The bounding region of signed places of `n` bytes each. -/
def boundRegion (xs : List Int) (n : Nat) : List Region :=
  match xs with
  | [] => []
  | x :: t =>
    let lo := t.foldl min x
    let hi := t.foldl max x
    mkRegion lo.toNat ((hi + n).toNat - lo.toNat) false

/-- The lines of a whole product for one feeder (R130, R132). -/
def prodLines (p : Prod) (extent : Nat) : List Nat :=
  (List.range (ceilDiv extent (tileOf p))).flatMap fun t => (feedLines p (allQuads p) extent t).map (·.2)

/-- The regions of one feeder: elements, scales, metadata and the occupancy map when used. Padded elements are left out. -/
def feedRegions (ds : Desc) (p : Prod) (extent : Nat) : List Region :=
  let lines := prodLines p extent
  let kept := 2 * ceilDiv p.k 4
  let n := if ds.sparse then kept else p.k
  let ks := if isFp4 ds.fmt then ceilDiv n 2 else n
  let place (base pitch per cnt : Nat) : List Int :=
    lines.flatMap fun l => [((base + l * pitch : Nat) : Int), ((base + l * pitch + (cnt - 1) / per : Nat) : Int)]
  boundRegion (lines.flatMap fun l => (List.range ks).filterMap fun k => elemAddr ds l k) (elemBytes ds.fmt) ++
  (if isMx ds.fmt then boundRegion (place ds.scaleBase ds.scalePitch 32 p.k) 1 else []) ++
  (if ds.sparse then boundRegion (place ds.metaBase ds.metaPitch 4 kept) 1 else []) ++
  (if ds.occEn then
     let blocks := ceilDiv extent (tileOf p) * (if p.quarter then 4 else 1)
     mkRegion ds.occBase (((blocks - 1) * ds.occPitch + (p.k - 1) / 32) / 8 + 1) false
   else [])

/-- The attention map that FA reads (R119). -/
def mapRegions (c : CoreRef) (p : Prod) (d : Dev) : List Region :=
  if p.map = 0 then []
  else
    let mb := mapBlock p (mTiles p - 1)
    let nb := mapBlock p (nTiles p - 1)
    let kb := (p.k - 1) / 128
    let rc : Nat × Nat := if p.map = 1 then (mb, nb) else if p.map = 2 then (mb, kb) else (kb, mb)
    mkRegion (rd (.fed c) FED_MAP_BASE d) ((rc.1 * rd (.fed c) FED_MAP_PITCH d + rc.2) / 8 + 1) false

/-- All regions of a product word's MX, FA, FB and DR slots; `p` has the slot's own M (R183). -/
def prodRegions (c : CoreRef) (p : Prod) (d : Dev) : List Region :=
  feedRegions (slotDesc c 0 p.setA p.baseA d) p p.m ++ mapRegions c p d ++
  feedRegions (slotDesc c 1 p.setB p.baseB d) p p.n ++ storeRegion p ++ destRegion p

/-- The part of a stream transfer that lies in the issuing core's own local memory. -/
def strSideRegion (c : CoreRef) (r : Int × Int) (write : Bool) (d : Dev) : List Region :=
  if r.1 < 0 || (2 ^ 64 : Nat) ≤ r.2 then []
  else
    let lo := r.1.toNat
    if gDev lo == ownDev d && gSpace lo == 2 then
      match boundCore (coreCtx c d) (bits lo 31 2) (bits lo 23 8) d with
      | some k => if k = c then mkRegion (bits lo 0 23) ((r.2 - r.1).toNat + 1) write else []
      | none => []
    else []

/-- The regions of a slot that is neither part of a product nor predicated off. The read of DST that FMA makes beside its write registers nothing of
its own (R172). -/
def workRegions (c : CoreRef) (wk : Work) (d : Dev) : List Region :=
  match wk with
  | .product p => prodRegions c p d
  | .drain r => mkRegion r.addr (formSize r.form) true
  | .load r => mkRegion r.addr ((loadSize r.form).getD 0) false
  | .vx op fmt _ dst s1 s2 rows =>
    let rs := vxRanges c op fmt dst s1 s2 rows d
    (if op = 4 then rs.take 1 ++ rs.drop 2 else rs).flatMap fun r => mkRegion r.1 r.2.1 r.2.2
  | .stream _ _ s => match s with
    | some s => strSideRegion c (srcRange s) false d ++ strSideRegion c (dstRange s) true d
    | none => []
  | .tackPut _ loc len _ _ _ => mkRegion loc len false
  | .tackGet _ loc len _ _ => mkRegion loc len true
  | .transpose _ rows cols src dst sp dp _ _ => (txRanges rows cols src dst sp dp).flatMap fun r => mkRegion r.1 r.2.1 r.2.2
  | .ld _ a => mkRegion a 8 false
  | .st _ a => mkRegion a 8 true

end Sys2Proof.Machine
end

