-- ==== Sys2Proof/Machine/Mcast.lean ====
section
/-! DEFINITION. Multicast (R319 to R321): reservation, grants, data, and what follows when a transfer has landed everywhere. -/

namespace Sys2Proof.Machine

/-! ### Version windows (R389, R392) -/

def prs0 : Blk := .prs 0
def prsR (ctx o : Nat) (d : Dev) : Nat := rdB prs0 o ctx d
def prsW (ctx o v : Nat) (d : Dev) : Dev := wrB prs0 o ctx v d
def prs64 (ctx o : Nat) (d : Dev) : Nat := rdB64 prs0 o ctx d

/-- The version windows of a context (R389). -/
def winBase (ctx k : Nat) (d : Dev) : Nat := prs64 ctx PRS_WC_LO d + k * prs64 ctx PRS_WC_STRIDE_LO d
def winLen (ctx : Nat) (d : Dev) : Nat := prs64 ctx PRS_WC_LEN_LO d

/-- A write touches a version window (R392). -/
def windowHit (key n : Nat) (d : Dev) : Bool :=
  decide (keySpace key ≤ 1) && (d.press.flatMap fun p => [(p.1, 0), (p.1, 1)]).any fun w =>
    let a := keyAddr key d
    decide (winBase w.1 w.2 d < a + n) && decide (a < winBase w.1 w.2 d + winLen w.1 d)

/-! ### Groups -/

/-- The group of number `n` whose source is this device. -/
def ownGroup (n : Nat) (d : Dev) : Option GroupSt := findGroup n (ownDev d) d

def modGroup (n src : Nat) (f : GroupSt → GroupSt) (d : Dev) : Dev :=
  { d with net := { d.net with groups := d.net.groups.map fun g => if g.n = n && g.source = src then f g else g } }

/-- Members on other devices, with their index. -/
def farMembers (g : GroupSt) (d : Dev) : List ((Nat × Nat × Nat) × Nat) := g.members.zipIdx.filter fun m => m.1.1 != ownDev d

/-- The base of this device's own member region. -/
def ownBase (g : GroupSt) (d : Dev) : Option Nat := (g.members.find? fun m => m.1 == ownDev d).map fun m => m.2.1

/-- SEQ of a group's next request: that of its first member's flow. -/
def groupSeq (g : GroupSt) (d : Dev) : Nat := match farMembers g d with | m :: _ => (getFlow m.1.2.2 d).seq | [] => 0

/-- The header that a group's copies share: the flow is that of the first member (DEDUCED, log entry 58). -/
def mcPacket (g : GroupSt) (q : Packet) (seq : Nat) (d : Dev) : Packet :=
  let f0 := match farMembers g d with | m :: _ => m.1.2.2 | [] => 0
  { q with srcDev := ownDev d, srcFlow := f0, dstFlow := peerFlow f0 d, seq := seq, aux0 := g.n, flow := true }

/-- The requests to members `ms` are tracked, each on its member's flow, which has issued one more (R316, R317). -/
def mcTrack (g : GroupSt) (q : Packet) (ms : List ((Nat × Nat × Nat) × Nat)) (d : Dev) : Dev :=
  ms.foldl (fun d m =>
    modFlow m.1.2.2 (fun s => { s with seq := (s.seq + 1) % 65536 }) (newReq (.mcast g.n m.2) q (some m.1.2.2) q.seq d)) d

/-- A request to members `ms`, one copy for each next hop of the tree; each member's flow keeps its own tracking entry and count. -/
def mcSend (g : GroupSt) (q : Packet) (seq : Nat) (ms : List ((Nat × Nat × Nat) × Nat)) (d : Dev) : Dev :=
  let q := mcPacket g q seq d
  let d := ms.foldl (fun d m =>
    let f := m.1.2.2
    if q.op = .mcData then wrB64 .fab FAB_FLOW_SENT_LO f ((rdB64 .fab FAB_FLOW_SENT_LO f d + q.data.length) % 2 ^ 48) d else d) (mcTrack g q ms d)
  branch q mgmtPos none (ms.map fun m => m.1.1) d

/-- FAB and the Press behind a transfer issue requests (R330, R400). -/
def mcRuns (x : McXfer) (d : Dev) : Bool := !isSafe .fab d && pressRuns (x.ent.getD 0 % 4) d

/-- The reservation of a transfer. -/
def mcAsk (x : McXfer) : Packet := { op := .mcReserve, cls := clReq, len := x.data.length - 1 }

/-- The group's next transfer asks every member for its window (R320 rule 1), once each member's flow has room (R316). -/
def mcStart (n : Nat) (d : Dev) : Dev :=
  match ownGroup n d with
  | some g => match g.todo with
    | x :: _ =>
      if g.asked || !mcRuns x d || !((farMembers g d).all fun m => canEmit m.1.2.2 0 d) then d
      else
        let seq := groupSeq g d
        let d := mcSend g (mcAsk x) seq (farMembers g d) d
        modGroup n (ownDev d) (fun g => { g with asked := true, granted := [], injected := false, held := false, seq := seq }) d
    | [] => d
  | none => d

/-- Every group whose next transfer waits tries again. -/
def mcWake (d : Dev) : Dev :=
  (d.net.groups.filter fun g => g.source == ownDev d && !g.asked && !g.todo.isEmpty).foldl (fun d g => mcStart g.n d) d

/-- A transfer joins a group's queue. -/
def mcQueue (n : Nat) (x : McXfer) (d : Dev) : Dev :=
  mcStart n (modGroup n (ownDev d) (fun g => { g with todo := g.todo ++ [x] }) d)

/-- FAB_MC of a group. -/
def setMcHold (n : Nat) (h : Bool) (d : Dev) : Dev := wrB .fab FAB_MC n (putBits (rdB .fab FAB_MC n d) 1 1 (b2n h)) d

def allGranted (g : GroupSt) (d : Dev) : Bool := (farMembers g d).all fun m => g.granted.contains m.2

/-- MC_RESERVE_RESEND (R320 rules 3 and 5): every member that has not granted is asked again, a member that has refused as a new request of its
flow, if FAB and the Press issue requests and that flow has room. -/
def mcResend (n : Nat) (d : Dev) : Dev :=
  match ownGroup n d with
  | some g => match g.todo with
    | x :: _ =>
      if !g.asked || g.injected || allGranted g d then d
      else
        let d := if g.held then d else
          setMcHold n true (bump .fab FAB_MCHOLD 1 (latch .fab cMulticastHold (modGroup n (ownDev d) (fun g => { g with held := true }) d)))
        let waits (m : (Nat × Nat × Nat) × Nat) : Bool := d.net.reqs.any fun r => decide (r.by_ = .mcast n m.2)
        let late := (farMembers g d).filter fun m => !g.granted.contains m.2 && (waits m || canEmit m.1.2.2 0 d)
        if !mcRuns x d then d
        else
          let q := mcPacket g (mcAsk x) g.seq d
          branch q mgmtPos none (late.map fun m => m.1.1) (mcTrack g q (late.filter fun m => !waits m) d)
    | [] => d
  | none => d

/-- The transfer in progress, not yet injected, is given up: nothing waits for the answers that are still to come, and the next begins. -/
def mcDrop (n : Nat) (d : Dev) : Dev :=
  let mine (r : Req) : Bool := match r.by_ with | .mcast k _ => k == n | _ => false
  let d := { d with net := { d.net with reqs := d.net.reqs.map fun r => if mine r then { r with by_ := .mgmt } else r } }
  mcStart n (setMcHold n false (modGroup n (ownDev d)
    (fun g => { g with todo := g.todo.tail, asked := false, granted := [], held := false }) d))

/-- A Press has stopped serving an entry: its transfers that have not been injected are given up (R371). -/
def mcForget (ctx e : Nat) (d : Dev) : Dev :=
  let own (x : McXfer) : Bool := x.ctx == ctx && x.ent == some e
  (d.net.groups.filter fun g => g.source == ownDev d).foldl (fun d g =>
    let d := modGroup g.n (ownDev d) (fun g => { g with todo := (g.todo.take 1) ++ (g.todo.drop 1).filter (!own ·) }) d
    if !g.injected && (g.todo.head?).any own then mcDrop g.n d else d) d

/-- A grant has come (R320 rule 3). -/
def mcGranted (n member : Nat) (d : Dev) : Dev :=
  let d := modGroup n (ownDev d) (fun g => { g with granted := if g.granted.contains member then g.granted else g.granted ++ [member] }) d
  match ownGroup n d with
  | some g => if allGranted g d then setMcHold n false d else d
  | none => d

/-- Bytes of a group's region written at a member: none where the region's address names no memory. -/
def mcStore (ctx base off : Nat) (data : List Byte) (poison : List Bool) (d : Dev) : Option Dev :=
  let a := base + off
  if gDev a == ownDev d && devValid d && decide (gSpace a ≤ 2) && offOk true (gSpace a) (gOff a) d && offOk true (gSpace a) (gOff a + data.length - 1) d then
    match spotOf ctx a d with
    | .mem k => some (memWrite k data (bytePoison poison data.length) d)
    | _ => none
  else none

/-- MC_DATA_INJECT (R320 rule 4): with every grant held, the data goes down the tree; the source's own copy is written at once. -/
def mcInject (n : Nat) (d : Dev) : Dev :=
  match ownGroup n d with
  | some g => match g.todo with
    | x :: _ =>
      let far := farMembers g d
      if !g.asked || g.injected || !allGranted g d || !mcRuns x d || !(far.all fun m => canEmit m.1.2.2 x.data.length d) then d
      else
        let d := match ownBase g d with
          | some b => (mcStore g.ctx b x.off x.data [] d).getD d
          | none => d
        let d := modGroup n (ownDev d) (fun g => { g with injected := true }) d
        mcSend g { op := .mcData, cls := clFwd, addr := x.off % 2 ^ 46, len := x.data.length - 1, data := x.data } (groupSeq g d) far d
    | [] => d
  | none => d

/-- The transfer in progress has landed everywhere: the next begins. The result is the transfer that has ended. -/
def mcEnded (n : Nat) (d : Dev) : Option McXfer × Dev :=
  match ownGroup n d with
  | some g =>
    if g.injected && !(d.net.reqs.any fun r => match r.by_ with | .mcast k _ => k == n | _ => false) then
      (g.todo.head?, mcStart n (modGroup n (ownDev d)
        (fun g => { g with todo := g.todo.tail, asked := false, granted := [], injected := false, held := false }) d))
    else (none, d)
  | none => (none, d)

/-- Thresholds of a flow in ascending TOTAL order, as seen from LANDED (R294). -/
def insertBy (v : Nat) (t : Threshold) : List Threshold → List Threshold
  | [] => [t]
  | x :: xs => if signed 48 (v + 2 ^ 48 - x.total % 2 ^ 48) < signed 48 (v + 2 ^ 48 - t.total % 2 ^ 48) then t :: x :: xs else x :: insertBy v t xs

/-- LANDED of a flow advances, and the thresholds it meets advance their flags (R292 to R294). Only TCK changes a stitch flag (R200). -/
def landed (f n : Nat) (d : Dev) : Dev :=
  let v := (rdB64 .fab FAB_FLOW_LANDED_LO f d + n) % 2 ^ 48
  let d := wrB64 .fab FAB_FLOW_LANDED_LO f v d
  let met (t : Threshold) : Bool := decide (0 ≤ signed 48 (v + 2 ^ 48 - t.total % 2 ^ 48))
  let ts := ((getFlow f d).totals.filter met).foldr (insertBy v) []
  let d := modFlow f (fun s => { s with totals := s.totals.filter (!met ·) }) d
  ts.foldl (fun d t => match t.flag with
    | some g => unitFlag (flowCtx f d) g 1 d
    | none => d) d

/-! ### At a member -/

/-- A request of the group as it stands on this member's own flow. -/
def onMember (m : Nat × Nat × Nat) (q : Packet) (d : Dev) : Packet := { q with dstFlow := m.2.2, srcFlow := peerFlow m.2.2 d }

/-- The unit that serves a member's region is fenced, or in reset. -/
def regionFenced (ctx base : Nat) (d : Dev) : Bool :=
  match spotOf ctx base d with
  | .mem k =>
    let b := keyBlk k d
    inReset b d || fenced b d || (match blkCore b with | some c => fenced (.cor c) d | none => false)
  | _ => false
def regionReset (ctx base : Nat) (d : Dev) : Bool := match spotOf ctx base d with | .mem k => inReset (keyBlk k d) d | _ => false

/-- A member's region that is fenced or in reset refuses a multicast request, and the router that serves it counts the NACK (R297, R299, R320). -/
def mcRefuse (g : GroupSt) (p q : Packet) (d : Dev) : Dev :=
  let r := mcastPos g p mgmtPos d
  respNack r nkTargetReset q (bump (posBlk r) MSH_NACK 1 d)

/-- MC_RESERVE_RECEIVE (R320 rule 2). -/
def mcReserveReceive (p : Packet) (d : Dev) : Dev :=
  match findGroup p.aux0 p.srcDev d with
  | none => d
  | some g => match ownMember g d with
    | none => d
    | some m =>
      let q := onMember m p d
      if regionFenced g.ctx m.2.1 d then mcRefuse g p q d
      else if g.reserved && g.seq != p.seq then modGroup g.n g.source (fun g => { g with waiting := some p }) d
      else respond mgmtPos q .mcGrant g.n 0 [] [] (modGroup g.n g.source (fun g => { g with reserved := true, seq := p.seq, left := p.len + 1 }) d)

/-- Multicast data would write into a version window (R392). -/
def mcBarred (ctx base off n : Nat) (d : Dev) : Bool := match spotOf ctx (base + off) d with | .mem k => windowHit k n d | _ => false

/-- MC_DATA_RECEIVE (R320 rule 4): the data is written at the member's base, counted on its flow and acknowledged. When all that the reservation
announced has landed, the window is free, and a reservation that waited for it is granted (DEDUCED, log entry 58). -/
def mcDataReceive (p : Packet) (d : Dev) : Dev :=
  match findGroup p.aux0 p.srcDev d with
  | none => d
  | some g => match ownMember g d with
    | none => d
    | some m =>
      let q := onMember m p d
      let left := g.left - p.data.length
      let d := modGroup g.n g.source (fun g => { g with reserved := g.reserved && decide (0 < left), left := left }) d
      let d := if regionReset g.ctx m.2.1 d then mcRefuse g p q d
        else if mcBarred g.ctx m.2.1 (bits p.addr 0 46) p.data.length d then respNack mgmtPos nkPerm q d
        else match mcStore g.ctx m.2.1 (bits p.addr 0 46) p.data p.poison d with
          | some d => respAck mgmtPos q (landed m.2.2 p.data.length d)
          | none => respNack mgmtPos nkAddress q d
      match (if 0 < left then none else g.waiting) with
      | some w => mcReserveReceive w (modGroup g.n g.source (fun g => { g with waiting := none }) d)
      | none => d

/-- MC_RESERVE_RESEND (R320). -/
def execMcReserveResend (g : Nat) (s : State) := s.onDev (mcResend g)
/-- MC_DATA_INJECT (R320). -/
def execMcDataInject (g : Nat) (s : State) := s.onDev (mcInject g)
/-- MC_RESERVE_RECEIVE (R320). -/
def execMcReserveReceive (p : Packet) (s : State) := s.onDev fun d => mcReserveReceive p (takePacket p d)

end Sys2Proof.Machine
end

