-- ==== Sys2Proof/Machine/PressArith.lean ====
section
/-! DEFINITION. The arithmetic of the Press (R379 to R388): moment encodings, recipes, working copies. -/

namespace Sys2Proof.Machine

/-! ### Moments (R379 to R381) -/

/-- M8S and M8U as element formats: 4 fraction bits, largest magnitude 1.9375. -/
def fmtM8S : FloatFmt := ⟨4, 3, 7, false, false, 31, -4⟩
def fmtM8U : FloatFmt := ⟨4, 4, 15, false, false, 31, -4⟩

/-- An element over its scale, as an FP32 code: a scale of 0xFF decodes to +0. -/
def momDecode (f : FloatFmt) (code x : Nat) : Nat :=
  if x = 255 then 0
  else
    let v := (f.decode code).scale ((x : Int) - 127)
    if v.isZero then 0 else toF32 v

/-- The scale of a block (R381). -/
def momScale (vs : List FVal) : Nat :=
  let a := vs.foldl (fun a v => match v with
    | .fin _ m e => if a.lt ⟨m, e⟩ then ⟨m, e⟩ else a
    | _ => a) Dy.zero
  if a.isZero then 0 else (clampInt 0 254 (a.log2 + 127)).toNat

/-- One element (R381), and whether it sets NONFINITE_STATE. `zero`: the block's largest magnitude is 0 (DEDUCED, log entry 83). -/
def momElem (signed_ zero : Bool) (x : Nat) (rnd : Rnd) (v : FVal) : Nat × Bool :=
  let f := if signed_ then fmtM8S else fmtM8U
  match v with
  | .nan => (0, true)
  | .inf n => (if n && !signed_ then 0 else f.maxCode n, true)
  | .fin n m e =>
    if n && m != 0 && !signed_ then (0, true)
    else if zero then (0, false)
    else
      let r := f.round rnd m (e - ((x : Int) - 127))
      (if f.overflows r.1 r.2 then f.maxCode (n && signed_) else f.pack (n && signed_) r.1 r.2, false)

/-- The blocks of 32 of a list, `k` of them. -/
def blocks32 {α : Type} : Nat → List α → List (List α)
  | 0, _ => []
  | k + 1, l => l.take 32 :: blocks32 k (l.drop 32)

/-- A moment region: the element bytes, then the scale bytes (R375). Values come with their rounding. -/
def momEncode (signed_ : Bool) (vs : List (Nat × Rnd)) : List Byte × Bool :=
  let bs := (blocks32 (ceilDiv vs.length 32) vs).map fun b =>
    let fs := b.map fun v => f32 v.1
    let x := momScale fs
    let zero := fs.all fun v => match v with | .fin _ m _ => m == 0 | _ => true
    ((b.map fun v => momElem signed_ zero x v.2 (f32 v.1)), x)
  (bs.flatMap (fun b => b.1.map fun c => BitVec.ofNat 8 c.1) ++ bs.map (fun b => BitVec.ofNat 8 b.2), bs.any fun b => b.1.any (·.2))

/-- The decoded values of a moment region of `n` elements, and whether a scale of 0xFF was met. -/
def momRead (signed_ : Bool) (n : Nat) (bs : List Byte) : List Nat × Bool :=
  let f := if signed_ then fmtM8S else fmtM8U
  let sc := bs.drop n
  ((bs.take n).zipIdx.map (fun p => momDecode f p.1.toNat ((sc[p.2 / 32]?).getD 0).toNat), sc.any fun x => x.toNat == 255)

/-! ### Recipes (R382 to R385) -/

def microOf (w : Nat) : MicroOp :=
  { op := bits w 0 6, d := bits w 6 5, a := bits w 11 5, b := bits w 16 5, c := bits w 21 5, rnd := bits w 26 2, bad := bits w 28 4 != 0 }

/-- Operands that an operation reads: how many of A, B, C. -/
def microReads : Nat → Nat
  | 0x08 | 0x09 | 0x0A | 0x0C | 0x11 | 0x12 => 2
  | 0x0B => 3
  | 0x0D | 0x0E | 0x0F | 0x10 | 0x18 | 0x19 | 0x1A | 0x1B => 1
  | _ => 0

def microKnown (op : Nat) : Bool :=
  decide (op ≤ 4) || (decide (8 ≤ op) && decide (op ≤ 0x12)) || (decide (0x18 ≤ op) && decide (op ≤ 0x1B))

def isStore (op : Nat) : Bool := decide (0x18 ≤ op) && decide (op ≤ 0x1B)

/-- The words of a recipe before END; none without one in 64 words. -/
def recipeBody : List MicroOp → Option (List MicroOp)
  | [] => none
  | m :: ms => if m.op = 0 then some [] else (recipeBody ms).map fun r => m :: r

/-- A word reads only constants and temporaries written before. -/
def readsOk (written : List Nat) (m : MicroOp) : Bool :=
  ([m.a, m.b, m.c].take (microReads m.op)).all fun x => decide (16 ≤ x) || written.contains x

/-- Words checked in order (R385). -/
def wordsOk : List Nat → List MicroOp → Bool
  | _, [] => true
  | written, m :: ms =>
    !m.bad && microKnown m.op && decide (m.d < 16) && (m.rnd == 0 || (m.rnd == 1 && (m.op == 0x19 || m.op == 0x1A || m.op == 0x1B))) &&
      readsOk written m && wordsOk (if isStore m.op then written else m.d :: written) ms

def countOp (o : Nat) (ms : List MicroOp) : Nat := (ms.filter fun m => m.op == o).length

/-- A recipe that a shard may name (R385). The END word itself must have no reserved value. -/
def recipeOk (momEn varEn : Bool) (ms : List MicroOp) : Bool :=
  match recipeBody ms with
  | none => false
  | some b =>
    wordsOk [] b && (match ms[b.length]? with | some e => !e.bad && e.rnd == 0 && decide (e.d < 16) | none => false) &&
    countOp 0x18 b == 1 && countOp 0x1B b == 1 &&
    countOp 3 b == b2n momEn && countOp 0x19 b == b2n momEn && countOp 4 b == b2n varEn && countOp 0x1A b == b2n varEn

/-- What a parameter brings and leaves: gradient, master and moments as FP32 codes; stores with their rounding code. -/
structure ParamIn where
  g : Nat
  w : Nat
  m : Nat
  u : Nat
structure ParamOut where
  w : Nat := 0
  m : Nat × Nat := (0, 0)
  u : Nat × Nat := (0, 0)
  c : Nat × Nat := (0, 0)

/-- SIGN, ABS and NEG of R384. -/
def fSign (a : Nat) : Nat :=
  match f32 a with
  | .nan => nan32
  | v => if v.isZero then a else if v.isNeg then 0xBF800000 else 0x3F800000

/-- An operand: a temporary or a constant. -/
def microArg (t ks : List Nat) (x : Nat) : Nat := ((if x < 16 then t[x]? else ks[x - 16]?)).getD 0

/-- The words of a recipe on one parameter. -/
def runRecipe (ks : List Nat) (i : ParamIn) : List MicroOp → List Nat → ParamOut → ParamOut
  | [], _, o => o
  | m :: ms, t, o =>
    let a := microArg t ks m.a
    let b := microArg t ks m.b
    let c := microArg t ks m.c
    let put (v : Nat) := runRecipe ks i ms (modNth (fun _ => v) m.d t) o
    match m.op with
    | 1 => put i.g
    | 2 => put i.w
    | 3 => put i.m
    | 4 => put i.u
    | 0x08 => put (fAdd a b)
    | 0x09 => put (fSub a b)
    | 0x0A => put (fMul a b)
    | 0x0B => put (fFma a b c)
    | 0x0C => put (fDiv a b)
    | 0x0D => put (fSqrt a)
    | 0x0E => put (fAbs a)
    | 0x0F => put (fNeg a)
    | 0x10 => put (fSign a)
    | 0x11 => put (fMax a b)
    | 0x12 => put (fMin a b)
    | 0x18 => runRecipe ks i ms t { o with w := a }
    | 0x19 => runRecipe ks i ms t { o with m := (a, m.rnd) }
    | 0x1A => runRecipe ks i ms t { o with u := (a, m.rnd) }
    | 0x1B => runRecipe ks i ms t { o with c := (a, m.rnd) }
    | _ => runRecipe ks i ms t o

/-- LDG (R384): the gradient over the loss scale. -/
def loadGrad (ls : Int) (g : Nat) : Nat := toF32 ((fmtBF16.decode g).scale (-ls))

/-- The rounding of a store (R386): element `i` of a shard at step `n`; `s` is 0 for STM, 1 for STU, 2 for STC. -/
def pressRnd (key n pbase i s rnd : Nat) : Rnd :=
  if rnd = 1 then .stoch (rngOut key ((n * 2 ^ 36 + (pbase + i) * 4 + s) % 2 ^ 64) % 65536) else .rne

/-! ### Working copies (R387) -/

/-- The bytes of a working copy. -/
def wcEncode (fmt : Nat) (exp : Int) (vs : List (Nat × Rnd)) : List Byte :=
  match fmt with
  | 0 => vs.flatMap fun v => toBytes 2 (convElem .bf16 false false v.2 (f32 v.1))
  | 1 => vs.map fun v => BitVec.ofNat 8 (convElem .e4m3 true false v.2 ((f32 v.1).scale (-exp)))
  | k =>
    let f := if k = 2 then fmtE4M3 else fmtE2M1
    let bs := (blocks32 (ceilDiv vs.length 32) vs).map fun b =>
      let x := mxScale (emaxOf (if k = 2 then 0 else 2)) (b.map fun v => f32 v.1)
      ((b.map fun v => if x = 255 then 0 else mxElem f v.2 x (f32 v.1)), x)
    let el := bs.flatMap (·.1)
    (if k = 2 then el.map (BitVec.ofNat 8 ·) else (packNibbles (el.map fun c => (c, false))).map (·.1)) ++ bs.map fun b => BitVec.ofNat 8 b.2

/-- Bytes of each region of a shard of `n` parameters (R375). -/
def masterSize (n : Nat) : Nat := 4 * n
def momSize (n : Nat) : Nat := n + ceilDiv n 32
def wcSize (fmt n : Nat) : Nat :=
  match fmt with
  | 0 => 2 * n
  | 1 => n
  | 2 => n + ceilDiv n 32
  | _ => ceilDiv n 2 + ceilDiv n 32

/-! ### Digests (R394) -/

/-- Leaves of 8,192 bytes. -/
def leaves : Nat → Nat → List Byte → List (List Byte)
  | 0, _, _ => []
  | k + 1, i, bs => Keccak.shake256 (toBytes 8 i ++ bs.take 8192) 32 :: leaves k (i + 1) (bs.drop 8192)

def entryDigest (n e count : Nat) (w : List Byte) : List Byte :=
  let ls := leaves (ceilDiv w.length 8192) 0 w
  Keccak.shake256 (toBytes 8 n ++ toBytes 4 e ++ toBytes 4 count ++ toBytes 8 ls.length ++ ls.flatten) 32

end Sys2Proof.Machine
end

