-- ==== Sys2Proof/Machine/Seq.lean ====
section
/-! DEFINITION. The sequencer (R151 to R158, R162, R172 to R185, R200, R206): fetching, starting words, waits, flag updates and
the SC slot. -/

namespace Sys2Proof.Machine

/-! ### Streams -/

def sHead (c : CoreRef) (st : Nat) (d : Dev) : Nat := rd64 (.seq c) (sOff st S_HEAD_LO) d
def sTail (c : CoreRef) (st : Nat) (d : Dev) : Nat := rd64 (.seq c) (sOff st S_TAIL_LO) d
def setHead (c : CoreRef) (st v : Nat) (d : Dev) : Dev := wr64 (.seq c) (sOff st S_HEAD_LO) (v % 2 ^ 64) d
def setTail (c : CoreRef) (st v : Nat) (d : Dev) : Dev := wr64 (.seq c) (sOff st S_TAIL_LO) (v % 2 ^ 64) d
def ringBytes (c : CoreRef) (st : Nat) (d : Dev) : Nat := 2 ^ rdF (.seq c) (sOff st S_SIZE) 0 5 d
def ringBase (c : CoreRef) (st : Nat) (d : Dev) : Nat := rd64 (.seq c) (sOff st S_BASE_LO) d
def tailAddr (c : CoreRef) (st : Nat) (d : Dev) : Nat := rd64 (.seq c) (sOff st S_TAILADDR_LO) d

/-- The signed 64-bit difference of two counts. -/
def diff64 (a b : Nat) : Int := signed 64 (a + 2 ^ 64 - b % 2 ^ 64)

/-- The key of the byte at ring position `p` (R151, R152). -/
def ringKey (c : CoreRef) (st p : Nat) (d : Dev) : Nat :=
  let b := ringBase c st d
  let o := p % ringBytes c st d
  if gSpace b = 2 then keyLoc c (bits b 0 23 + o) else keyNear (gOff b + o)

/-- A BASE that R190 accepts. -/
def baseOk (c : CoreRef) (st : Nat) (d : Dev) : Bool :=
  let b := ringBase c st d
  let n := ringBytes c st d
  b % n == 0 && devValid d && gDev b == ownDev d &&
    (if gSpace b = 0 then decide (gOff b + n ≤ nearSize)
     else gSpace b == 2 && decide (bits b 0 23 + n ≤ lmSize c))

/-- A TAILADDR that R190 accepts. -/
def tailOk (c : CoreRef) (st : Nat) (d : Dev) : Bool :=
  let a := tailAddr c st d
  a % 8 == 0 && devValid d && gDev a == ownDev d &&
    (if gSpace a = 0 then decide (gOff a < nearSize) else gSpace a == 2 && decide (bits a 0 23 < lmSize c))

def tailKey (c : CoreRef) (st : Nat) (d : Dev) : Nat :=
  let a := tailAddr c st d
  if gSpace a = 2 then keyLoc c (bits a 0 23) else keyNear (gOff a)

/-- A misplaced ring or tail word stops the stream (R190). -/
def streamCheck (c : CoreRef) (st : Nat) (d : Dev) : Dev :=
  if baseOk c st d && tailOk c st d then d
  else stopStream c st 4 (latch (.seq c) cAddressFault (modStream c st (fun s => { s with misplaced := true }) d))

/-- The tail word is read and its value treated as a write to it (R155, R158). Poisoned data is not used (R236). -/
def tailRead (c : CoreRef) (st : Nat) (d : Dev) : Dev :=
  let k := tailKey c st d
  if isSafe (keyBlk k d) d then d
  else
    let d := readEffects k 8 d
    if anyPoison k 8 d then lmmPoisonUse c (keyAddr k d) d
    else
      let v := memNat k 8 d
      if diff64 v (sTail c st d) < 0 || (ringBytes c st d : Int) < diff64 v (sHead c st d) then illegalWord c st 10 15 d
      else setTail c st v d

/-- TAIL_WRITE (R155, R158): a write to the watched tail word has landed. -/
def tailWrite (c : CoreRef) (st : Nat) (d : Dev) : Dev :=
  if streamOn c st d && baseOk c st d && tailOk c st d then tailRead c st d else d

/-- ENABLE changes from 0 to 1 (R155, R190). A stop for a misplaced ring or tail word is lifted once the register has been
corrected. -/
def streamEnabled (c : CoreRef) (st : Nat) (d : Dev) : Dev :=
  let d := modStream c st (fun s => { s with lines := [], wait := none, breakPass := false, sbFull := false }) d
  if baseOk c st d && tailOk c st d then
    let d := if (getStream c st d).misplaced then unstopStream c st (modStream c st (fun s => { s with misplaced := false }) d) else d
    tailRead c st d
  else streamCheck c st d

/-- RESUME (R184, R185, R190, R191): after a break the word at HEAD starts without testing the breakpoints again; after a refusal it is
fetched and examined again; after any other stop the stream goes on at HEAD. The stops for a misplaced ring or tail word and of the safe state
stay: they end as R190 and R191 say (log entry 44). -/
def streamResumed (c : CoreRef) (st : Nat) (d : Dev) : Dev :=
  if !stopped c st d || stopCause c st d == 6 || (getStream c st d).misplaced then d
  else if stopCause c st d == 2 then unstopStream c st (modStream c st (fun s => { s with breakPass := true }) d)
  else if stopCause c st d == 1 then unstopStream c st (modStream c st (fun s => { s with lines := [] }) d)
  else unstopStream c st d

/-- BASE_HI written (R190): HEAD, TAIL and COUNT return to 0. -/
def streamRebased (c : CoreRef) (st : Nat) (d : Dev) : Dev :=
  let d := setHead c st 0 (setTail c st 0 (wr64 (.seq c) (sOff st S_COUNT_LO) 0 d))
  let d := modStream c st (fun s => { s with lines := [] }) d
  if streamOn c st d then streamCheck c st d else d

/-! ### Fetching (R151, R152, R154, R157) -/

def lineOf (s : StreamSt) (n : Nat) : List (Byte × Bool) := ((s.lines.find? fun l => l.1 == n).map (·.2)).getD []

/-- The bytes of line `n` below TAIL. -/
def lineLimit (c : CoreRef) (st n : Nat) (d : Dev) : Nat :=
  let k := diff64 (sTail c st d) (64 * n)
  if k ≤ 0 then 0 else if 64 ≤ k then 64 else k.toNat

/-- The next line of the fetch buffer with bytes still to fetch. -/
def nextLine (c : CoreRef) (st : Nat) (d : Dev) : Option Nat :=
  let s := getStream c st d
  (countFrom (sHead c st d / 64) 4).find? fun n => decide ((lineOf s n).length < lineLimit c st n d)

/-- WORD_FETCH (R151, R154): the next line of the stream's ring reaches its buffer of 256 bytes (DEDUCED, log entry 45). -/
def wordFetch (c : CoreRef) (st : Nat) (d : Dev) : Dev :=
  if !streamOn c st d || stopped c st d || !baseOk c st d then d
  else match nextLine c st d with
    | none => d
    | some n =>
      let have_ := lineOf (getStream c st d) n
      let k := ringKey c st (64 * n) d + have_.length
      let len := lineLimit c st n d - have_.length
      if isSafe (keyBlk k d) d then d
      else
        let d := readEffects k len d
        let new := (memBytes k len d).zip (poisonBytes k len d)
        let h := sHead c st d / 64
        let d := modStream c st (fun s => { s with lines :=
          (s.lines.filter fun l => l.1 != n && decide (h ≤ l.1) && decide (l.1 < h + 4)) ++ [(n, have_ ++ new)] }) d
        match poisonKey k len d with | some g => lmmPoisonUse c (keyAddr g d) d | none => d

/-- Fetched bytes from position `p`; none if any of them is not fetched. -/
def fetched (s : StreamSt) (p n : Nat) : Option (List (Byte × Bool)) :=
  ((List.range n).map fun i => (lineOf s ((p + i) / 64))[(p + i) % 64]?).foldr
    (fun b r => match b, r with | some x, some l => some (x :: l) | _, _ => none) (some [])

/-- The word at HEAD, wholly fetched below TAIL (R152, R154), and its length; none while it is not, or while poisoned bytes of
it hold the stream (R236). -/
def headWord (c : CoreRef) (st : Nat) (d : Dev) : Option (LongWord × Nat) :=
  let s := getStream c st d
  let h := sHead c st d
  let avail := diff64 (sTail c st d) h
  if avail < 2 then none
  else match fetched s h 2 with
    | none => none
    | some hb =>
      let len := wLength (ofBytes (hb.map (·.1)))
      if avail < len then none
      else match fetched s h len with
        | none => none
        | some bs => if bs.any (·.2) then none else some (parseWord (bs.map (·.1)), len)

/-! ### Examining the word at HEAD (R154, R162, R175, R177, R184, R185) -/

/-- Slots of the stream's own last word that the next word waits for (R162): its SC load or store, and its plain update. -/
def streamBusy (x : CoreSt) (st : Nat) : Bool :=
  x.jobs.any (fun j => j.stream == st && unitOf j.work == 7 && decide (j.phase ≠ .done)) ||
  x.upds.any fun u => u.stream == st && !u.done

/-- The breakpoint that the word at HEAD meets (R184): by count, or by tag. Where both hold, KIND records the count (DESIGN CHOICE, log entry 150). -/
def breakKind (c : CoreRef) (st : Nat) (w : LongWord) (d : Dev) : Option Nat :=
  let ctl := rd (.seq c) (sOff st S_CTL) d
  let bt := rd (.seq c) (sOff st S_BRK_TAG) d
  if bit ctl 3 && rd64 (.seq c) (sOff st S_COUNT_LO) d == rd64 (.seq c) (sOff st S_BRK_COUNT_LO) d then some 0
  else match w.tag with
    | some t => if bit ctl 4 && (t ^^^ bits bt 0 16) &&& bits bt 16 16 == 0 then some 1 else none
    | none => none

/-- The wait of a word: flag and target (R177). -/
def waitOf (c : CoreRef) (st : Nat) (w : LongWord) (d : Dev) : Option (Nat × Nat) :=
  match slotOf w 6 with
  | some v => if bits v 0 3 = 1 then some (bits v 3 14, (sreg c st (bits v 17 4) d + bits v 21 11) % 2 ^ 64) else none
  | none => none

/-- A flag reaches a target (R176, R235). -/
def flagReached (ctx f t : Nat) (d : Dev) : Bool := !flagPoison ctx f d && decide (0 ≤ diff64 (flagVal ctx f d) t)

/-- The work of the word's slots, in slot order, with the slot numbers and the predicate bit that governs each. -/
def wordWorks (c : CoreRef) (st : Nat) (w : LongWord) (d : Dev) : List (Nat × Work) :=
  (match slotOf w 0, slotOf w 1, slotOf w 2, slotOf w 3 with
   | some mx, some fa, some fb, some dr =>
     let m := if mxDyn mx then match predOf w with
       | some p => min (mxM mx) (sreg c st p.reg d % 2 ^ 32)
       | none => mxM mx else mxM mx
     [(0, Work.product (prodOf mx fa fb dr m))]
   | none, _, _, some dr => [(3, if bits dr 0 2 = 1 then Work.load (drOf dr) else Work.drain (drOf dr))]
   | _, _, _, _ => []) ++
  (match slotOf w 4 with
   | some v => [(4, Work.vx (bits v 0 8) (bits v 8 4) (bits v 12 2) (bits v 14 23) (bits v 37 23) (bits v 60 23) (bits v 83 13 + 1))]
   | none => []) ++
  (match slotOf w 5 with
   | some v =>
     let a := (sreg c st (bits v 4 4) d + bits v 8 24) % 2 ^ 64
     match bits v 0 4 with
     | 1 => [(5, Work.stream (bits v 4 1) (bits v 5 8) (readStrDesc c (bits v 4 1) (bits v 5 8) d).1)]
     | 2 => [(5, Work.tackPut a (bits v 32 23) (bits v 55 8 + 1) (bit v 63) (bit v 63 && bit v 78) (bits v 64 14))]
     | 3 => [(5, Work.tackGet a (bits v 32 23) (bits v 55 8 + 1) (bit v 63) (bits v 64 14))]
     | _ => [(5, Work.transpose (bits v 4 1) (bits v 5 7 + 1) (bits v 12 7 + 1) (bits v 19 17 * 64) (bits v 36 17 * 64)
         (bits v 53 12 * 2) (bits v 65 12 * 2) (bit v 77) (bits v 78 14))]
   | none => []) ++
  (match slotOf w 7 with
   | some v => match bits v 0 4 with
     | 2 => [(7, Work.ld (bits v 4 4) (8 * bits v 8 20))]
     | 3 => [(7, Work.st (bits v 4 4) (8 * bits v 8 20))]
     | _ => []
   | none => [])

/-- The BASE that a product still in the queue will write into a feeder's set before this word's product runs (R166). -/
def queuedBase (f n : Nat) (x : CoreSt) : Option Nat :=
  (x.jobs.filterMap fun j => match j.work, j.phase with
    | .product q, .queued => if f = 0 then (if q.setA = n then q.baseA else none) else if q.setB = n then q.baseB else none
    | _, _ => none).getLast?

/-- The regions that a piece of work registers: those of a product are formed from the slot's own M (R183), and from the BASE that its set will hold
(R166). -/
def regionsOf (c : CoreRef) (w : LongWord) (wk : Work) (d : Dev) : List Region :=
  match wk with
  | .product p =>
    let x := getCore c d
    workRegions c (.product { p with m := match slotOf w 0 with | some mx => mxM mx | none => p.m
                                     baseA := p.baseA <|> queuedBase 0 p.setA x, baseB := p.baseB <|> queuedBase 1 p.setB x }) d
  | _ => workRegions c wk d

def engKey (die cl i : Nat) : Nat := (die * 8 + cl) * 2 + i
def strInit (_ : Nat) : StrSt := {}
def getStr (k : Nat) (d : Dev) : StrSt := Sparse.get strInit d.net.engines k
def setStr (k : Nat) (x : StrSt) (d : Dev) : Dev := { d with net := { d.net with engines := Sparse.set strInit d.net.engines k x } }
def modStr (k : Nat) (f : StrSt → StrSt) (d : Dev) : Dev := setStr k (f (getStr k d)) d

/-- Entries of a unit's slot queue in use (R154); a stream engine's queue for this core counts its starts not yet taken
(R242). -/
def queueUsed (c : CoreRef) (u : Nat) (d : Dev) : Nat :=
  queueLen u (getCore c d) +
  (if u = 5 || u = 6 then ((getStr (engKey c.die c.cl (u - 5)) d).queue.filter fun s => decide (s.core = c)).length else 0)

/-- What examining the word at HEAD finds. -/
inductive Exam where
  | nothing
  | refuse (cause slot : Nat)
  | break_ (kind : Nat)
  | wait (flag target : Nat)
  /-- a unit's queue has no free entry -/
  | queue
  /-- the scoreboard has too few free entries -/
  | full
  | ready (w : LongWord) (len : Nat)
deriving DecidableEq, Repr

/-- The word is examined: refusals that its bits alone give, breakpoints, its wait, the refusals that rest on the array and
its descriptor sets, and the room of R154. -/
def examine (c : CoreRef) (st : Nat) (d : Dev) : Exam :=
  let s := getStream c st d
  let x := getCore c d
  if !streamOn c st d || stopped c st d || s.halted || s.seam || idle (.seq c) d || streamBusy x st ||
      s.wait.any (fun w => !w.ready) then .nothing
  else match headWord c st d with
    | none => .nothing
    | some (w, len) =>
      let all := wordRefusals c w d
      let now := all.filter fun r => r.1 != 6 && r.1 != 7
      match (if now.isEmpty then none else firstRefusal all) with
      | some r => .refuse r.1 r.2
      | none =>
        match (if s.breakPass then none else breakKind c st w d) with
        | some k => .break_ k
        | none =>
          match (if s.wait.isSome then none else (waitOf c st w d).bind fun t =>
              if flagReached (coreCtx c d) t.1 t.2 d then none else some t) with
          | some t => .wait t.1 t.2
          | none =>
            match firstRefusal all with
            | some r => .refuse r.1 r.2
            | none => if descHeld c w d then .nothing else
              let ws := wordWorks c st w d
              if ws.any fun k => unitOf k.2 != 7 && decide (4 ≤ queueUsed c (unitOf k.2) d) then .queue
              else
                let need := (ws.map fun k => if slotRuns c st w k.1 d then (regionsOf c w k.2 d).length else 0).sum
                if 64 < sbUsed x + need then .full else .ready w len

def isReady : Exam → Bool
  | .ready _ _ => true
  | _ => false

/-! ### Starting a word (R162) -/

/-- FLAG_ADD to a flag of the issuing core's context on a device (R177, R289); refused with ADDRESS_FAULT where no address or no
control flow leads there. -/
def remoteFlag (c : CoreRef) (st word slot dst flag inc : Nat) (d : Dev) : Dev :=
  let a := gAddr dst 4 (coreCtx c d * 0x20000 + 8 * flag)
  let flow := controlFlow c dst d
  if !addrOk a d || (dst != ownDev d && flow.isNone) then stopStream c st 4 (latch (.seq c) cAddressFault d)
  else sendOp (.sync c st word slot) flow { op := .flagAdd, addr := a, len := 7, data := toBytes 8 inc } d

/-- An SY update acts: a REMOTE form reads its S register now, after the word's own SC slot (R162, R177) (DEDUCED, log entry 140). -/
def actUpdate (c : CoreRef) (u : SyUpd) (d : Dev) : Dev :=
  match u.remote with
  | none => unitFlag (coreCtx c d) u.flag u.inc d
  | some r => remoteFlag c u.stream u.word 6 (sreg c u.stream r d % 32768) u.flag u.inc d

/-- A job is queued to its unit with its regions (R162 step 2). -/
def pushJob (c : CoreRef) (w : LongWord) (st word slot : Nat) (wk : Work) (d : Dev) : Dev :=
  let rs := regionsOf c w wk d
  modCore c (fun x => { x with nextJob := x.nextJob + 1,
                               jobs := x.jobs ++ [{ id := x.nextJob, word := word, stream := st, slot := slot, work := wk, regions := rs }] }) d

/-- The first cause of R241 that a predicated-off STREAM slot is checked for. -/
def offCause (s : Option StrDesc) : Option Nat :=
  match s with
  | none => some 7
  | some x => if x.bad then some 1 else none

/-- A refused start (R241): STR latches ADDRESS_FAULT and records the cause and the first address at fault; for causes 1 and 7
no address is, and what is recorded is free. -/
def strRefuse (c : CoreRef) (e desc st cause : Nat) (addr : Option Nat) (d : Dev) : Dev :=
  latchWith (strBlk c e) cAddressFault (fun d =>
    let a := addr.getD (freeNow d + freeAt 1 d * 2 ^ 32)
    let d := if addr.isNone then freeSkip 2 d else d
    wr64 (strBlk c e) STR_FLT_ADDR_LO a (wr (strBlk c e) STR_FLT (cause + desc * 256 + c.slot * 65536 + st * 2 ^ 20) d)) d

/-- What a governed slot does whose predicate is false (R182); true when the stream has stopped over it. -/
def predOff (c : CoreRef) (st word : Nat) (wk : Work) (d : Dev) : Dev × Bool :=
  let adv (e : Bool) (f : Nat) : Dev × Bool := (if e then advFlag c f d else d, false)
  match wk with
  | .product p => adv p.dr.flagEn p.dr.flag
  | .drain r | .load r => adv r.flagEn r.flag
  | .tackPut a _ _ fe nt f =>
    if fe && nt && gDev a != ownDev d then
      let d' := remoteFlag c st word 5 (gDev a) f 1 d
      (d', stopped c st d')
    else adv fe f
  | .tackGet _ _ _ fe f => adv fe f
  | .transpose _ _ _ _ _ _ _ fe f => adv fe f
  | .stream e n s =>
    match offCause s with
    | some k => (stopStream c st 4 (strRefuse c e n st k none d), true)
    | none => match s with
      | some x =>
        if !x.flagEn then (d, false)
        else if x.notify then
          match boundFlow (coreCtx c d) x.flow d with
          | some f =>
            (sendOp (.sync c st word 5) (some f)
              { op := .flagAdd, addr := gAddr (gDev x.dst) 4 (coreCtx c d * 0x20000 + 8 * x.flag), len := 7, data := toBytes 8 1 } d, false)
          | none => (d, false)
        else adv true x.flag
      | none => (d, false)
  | _ => (d, false)

/-- The slots of steps 2 and 3 that are units' work, in slot order, until one stops the stream. -/
def startSlots (c : CoreRef) (w : LongWord) (st word : Nat) : List (Nat × Work) → Dev → Dev × Bool
  | [], d => (d, false)
  | (i, wk) :: t, d =>
    if slotRuns c st w i d then startSlots c w st word t (pushJob c w st word i wk d)
    else
      let r := predOff c st word wk d
      if r.2 then r else startSlots c w st word t r.1

/-- ALU of the SC slot (R171). -/
def scAlu (fn a b : Nat) : Nat :=
  let m := 2 ^ 64
  match fn with
  | 0x0 => (a + b) % m
  | 0x1 => (a + m - b) % m
  | 0x2 => a &&& b
  | 0x3 => a ||| b
  | 0x4 => a ^^^ b
  | 0x5 => (a <<< (b % 64)) % m
  | 0x6 => a >>> (b % 64)
  | 0x7 => (a * b) % m
  | 0x8 => if signed 64 a ≤ signed 64 b then a else b
  | 0x9 => if signed 64 a ≤ signed 64 b then b else a
  | 0xA => b2n (decide (signed 64 a < signed 64 b))
  | 0xB => b2n (a == b)
  | 0xC => fAdd (a % 2 ^ 32) (b % 2 ^ 32)
  | 0xD => fMul (a % 2 ^ 32) (b % 2 ^ 32)
  | _ => b2n (fLt (a % 2 ^ 32) (b % 2 ^ 32))

/-- An SC slot that works on S registers or HEAD alone acts (R171): the device, and where HEAD goes if it jumps. -/
def scAct (c : CoreRef) (st pos v : Nat) (d : Dev) : Dev × Option Nat :=
  let r := bits v 4 4
  let s := sreg c st r d
  let jump := some (wrap 64 (pos + 4 * signed 24 (bits v 8 24)))
  match bits v 0 4 with
  | 4 => (setSreg c st r (bits v 8 24) d, none)
  | 5 => (setSreg c st r (wrap 64 (s + signed 24 (bits v 8 24))) d, none)
  | 6 => (setSreg c st r (scAlu (bits v 12 4) s (sreg c st (bits v 8 4) d)) d, none)
  | 7 => if s = 0 then (d, none) else (setSreg c st r (s - 1) d, jump)
  | 8 => (d, jump)
  | 9 => (d, if s = 0 then jump else none)
  | _ => (d, none)

/-- The SY slot's part after the others have started (R162 step 4, R177, R206). A plain update waits while the word's own SC
load or store is under way. -/
def syAct (c : CoreRef) (st word v : Nat) (d : Dev) : Dev :=
  let op := bits v 0 3
  let u : SyUpd := { word := word, stream := st, flag := bits v 3 14, inc := bits v 21 11 + 1,
                     remote := if op = 4 || op = 5 then some (bits v 17 4) else none,
                     done := op == 3 || op == 5 }
  if op = 6 then modStream c st (fun s => { s with seam := true }) d
  else if op = 1 then d
  else if u.done || streamBusy (getCore c d) st then modCore c (fun x => { x with upds := x.upds ++ [u] }) d
  else actUpdate c u d

/-- A stream's buffered lines after HEAD has moved. -/
def trimLines (c : CoreRef) (st : Nat) (d : Dev) : Dev :=
  let h := sHead c st d / 64
  modStream c st (fun s => { s with lines := s.lines.filter fun l => decide (h ≤ l.1) && decide (l.1 < h + 4) }) d

/-- The peak of the scoreboard (SEQ_SB_STAT). -/
def sbPeak (c : CoreRef) (d : Dev) : Dev :=
  wrF (.seq c) SEQ_SB_STAT 8 7 (max (rdF (.seq c) SEQ_SB_STAT 8 7 d) (sbUsed (getCore c d))) d

/-- The word starts: its slots in slot order, its SC slot, its SY slot; HEAD moves on (R162, R171, R184). -/
def startWord (c : CoreRef) (st : Nat) (w : LongWord) (len : Nat) (d : Dev) : Dev :=
  let pos := sHead c st d
  let word := (getCore c d).nextWord
  let d := modStream c st (fun s => { s with wait := none, breakPass := false, sbFull := false }) d
  let d := modCore c (fun x => { x with nextWord := x.nextWord + 1, last := st }) d
  let d := bump64 (.seq c) (sOff st S_COUNT_LO) 1 d
  let d := match slotOf w 5 with
    | some v => if bits v 0 4 = 1 then (readStrDesc c (bits v 4 1) (bits v 5 8) d).2 else d
    | none => d
  let r := startSlots c w st word (wordWorks c st w d) d
  if r.2 then sbPeak c (trimLines c st (setHead c st (pos + len) r.1))
  else
    let q := match slotOf w 7 with | some v => scAct c st pos v r.1 | none => (r.1, none)
    let d := match slotOf w 6 with | some v => syAct c st word v q.1 | none => q.1
    sbPeak c (trimLines c st (setHead c st (q.2.getD (pos + len)) d))

/-- The stream that round-robin takes among those that are ready (R154). -/
def roundRobin (c : CoreRef) (d : Dev) : Option Nat :=
  let n := nStreams c
  let l := (getCore c d).last
  ((List.range n).map fun i => (l + 1 + i) % n).find? fun st => isReady (examine c st d)

/-- WORD_START (R154, R162): the stream's word is examined; it is refused, breaks, takes up its wait, or, when its turn has
come, starts. -/
def wordStart (c : CoreRef) (st : Nat) (d : Dev) : Dev :=
  match examine c st d with
  | .refuse cause slot => illegalWord c st cause slot d
  | .break_ k => stopStream c st 2 (latchWith (.seq c) cBreakHit (wr (.seq c) SEQ_BRK_STAT (st + 16 * k)) d)
  | .wait f t =>
    let d := readEffects (flagKey (coreCtx c d) f) 8 d
    modStream c st (fun s => { s with wait := some ⟨f, t, flagVal (coreCtx c d) f d, false⟩ }) d
  | .ready w len => if roundRobin c d = some st then startWord c st w len d else d
  | _ => d

/-- SCOREBOARD_FULL (R175): the word has waited LIMIT cycles for entries. -/
def scoreboardFull (c : CoreRef) (st : Nat) (d : Dev) : Dev :=
  if examine c st d = .full && !(getStream c st d).sbFull then
    modStream c st (fun s => { s with sbFull := true })
      (wrF (.seq c) SEQ_SB_STAT 16 4 st (latch (.seq c) cScoreboardFull d))
  else d

/-! ### SC loads and stores (R171, R523, R236) -/

/-- The word's plain update acts once its SC slot has (R162). -/
def afterSc (c : CoreRef) (st : Nat) (d : Dev) : Dev :=
  match (getCore c d).upds.find? fun u => u.stream == st && !u.done with
  | some u => actUpdate c u (modCore c (fun x => { x with upds := x.upds.filter fun v => !(v.stream == st && !v.done) }) d)
  | none => d

/-- A faulting SC slot: the slot does nothing and the word's update with it (DEDUCED, log entry 46). -/
def scFault (c : CoreRef) (j : Job) (d : Dev) : Dev :=
  let d := finishJob c j.id (slotFault c j.id d)
  modCore c (fun x => { x with upds := x.upds.filter fun v => !(v.stream == j.stream && !v.done) }) d

/-- The stream's SC load or store, with its dependences cleared. -/
def scJob (c : CoreRef) (st : Nat) (d : Dev) : Option Job :=
  let x := getCore c d
  (x.jobs.find? fun j => j.stream == st && unitOf j.work == 7 && decide (j.phase = .queued)).filter fun j => depsClear j x

/-- SC_LD (R171): S[REG] takes the 64-bit word; poisoned data holds the slot (R236). -/
def scLd (c : CoreRef) (st : Nat) (d : Dev) : Dev :=
  match scJob c st d with
  | some j => match j.work with
    | .ld r a =>
      if idle (.lmm c) d then d
      else if lmSize c < a + 8 then scFault c j d
      else
        let d := readEffects (keyLoc c a) 8 d
        match poisonKey (keyLoc c a) 8 d with
        | some k => lmmPoisonUse c (keyAddr k d) (startJob c j.id d)
        | none => afterSc c st (finishJob c j.id (setSreg c st r (lmNat c a 8 d) d))
    | _ => d
  | none => d

/-- SC_ST (R171): the local-memory word takes S[REG]. -/
def scSt (c : CoreRef) (st : Nat) (d : Dev) : Dev :=
  match scJob c st d with
  | some j => match j.work with
    | .st r a =>
      if idle (.lmm c) d then d
      else if lmSize c < a + 8 then scFault c j d
      else afterSc c st (finishJob c j.id (memPutNat (keyLoc c a) 8 (sreg c st r d) d))
    | _ => d
  | none => d

/-! ### Updates that wait for the word, completion, waits (R172, R177 to R179) -/

/-- The first DONE update of the stream whose word has no slot left to complete. -/
def dueUpdate (c : CoreRef) (st : Nat) (remote : Bool) (d : Dev) : Option SyUpd :=
  let x := getCore c d
  x.upds.find? fun u => u.stream == st && u.done && u.remote.isSome == remote &&
    x.jobs.all fun j => j.word != u.word || decide (j.phase = .done)

/-- A due update acts, unless it is withheld (R243). -/
def doneUpdate (c : CoreRef) (st : Nat) (remote : Bool) (d : Dev) : Dev :=
  match dueUpdate c st remote d with
  | some u =>
    let d := modCore c (fun x => { x with upds := x.upds.erase u }) d
    if u.withheld then d else actUpdate c u d
  | none => d

/-- SLOT_COMPLETE (R172): the slot's last access has finished and its entries are free. -/
def slotComplete (c : CoreRef) (job : Nat) (d : Dev) : Dev :=
  modCore c (fun x => { x with jobs := x.jobs.filter fun j => !(j.id == job && decide (j.phase = .done)) }) d

/-- FLAG_NOTICE (R178): the streams that wait on the flag evaluate their waits again. -/
def flagNotice (c : CoreRef) (d : Dev) : Dev :=
  match (getCore c d).notices with
  | f :: rest =>
    let ctx := coreCtx c d
    let d := readEffects (flagKey ctx f) 8 d
    let v := flagVal ctx f d
    modCore c (fun x => { x with notices := rest, streams := x.streams.map fun s =>
      match s.wait with
      | some w => if w.flag = f then { s with wait := some { w with value := v, ready := w.ready || flagReached ctx f w.target d } } else s
      | none => s }) d
  | [] => d

/-- FLAG_WAIT_TIMEOUT (R179): the frame budget has been used and the wait is unsatisfied; a frame-end word never times out
(DEDUCED, log entry 42). -/
def flagWaitTimeout (c : CoreRef) (st : Nat) (d : Dev) : Dev :=
  match (getStream c st d).wait with
  | some w =>
    if w.ready || w.flag = stitchFlag || !framed (coreCtx c d) d || stopped c st d then d
    else
      modStream c st (fun x => { x with timedOut := true }) (stopStream c st 3 (latchWith (.seq c) cFlagWaitTimeout (fun d =>
        wr64 (.seq c) SEQ_TMO_VAL_LO w.value (wr64 (.seq c) SEQ_TMO_TGT_LO w.target (wr (.seq c) SEQ_TMO (st + w.flag * 16) d))) d))
  | none => d

/-! ### The commands -/

/-- TAIL_WRITE (R155). -/
def execTailWrite (c : CoreRef) (st : Nat) (s : State) := s.onDev (tailWrite c st)
/-- WORD_FETCH (R151). -/
def execWordFetch (c : CoreRef) (st : Nat) (s : State) := s.onDev (wordFetch c st)
/-- WORD_START (R162). -/
def execWordStart (c : CoreRef) (st : Nat) (s : State) := s.onDev (wordStart c st)
/-- SCOREBOARD_FULL (R175). -/
def execScoreboardFull (c : CoreRef) (st : Nat) (s : State) := s.onDev (scoreboardFull c st)
/-- SC_LD (R171). -/
def execScLd (c : CoreRef) (st : Nat) (s : State) := s.onDev (scLd c st)
/-- SC_ST (R171). -/
def execScSt (c : CoreRef) (st : Nat) (s : State) := s.onDev (scSt c st)
/-- SY_INC_DONE (R177). -/
def execSyIncDone (c : CoreRef) (st : Nat) (s : State) := s.onDev (doneUpdate c st false)
/-- SY_INC_REMOTE_DONE (R177). -/
def execSyIncRemoteDone (c : CoreRef) (st : Nat) (s : State) := s.onDev (doneUpdate c st true)
/-- SLOT_COMPLETE (R172). -/
def execSlotComplete (c : CoreRef) (job : Nat) (s : State) := s.onDev (slotComplete c job)
/-- FLAG_NOTICE (R178). -/
def execFlagNotice (c : CoreRef) (s : State) := s.onDev (flagNotice c)
/-- FLAG_WAIT_TIMEOUT (R179). -/
def execFlagWaitTimeout (c : CoreRef) (st : Nat) (s : State) := s.onDev (flagWaitTimeout c st)

end Sys2Proof.Machine
end

