-- ==== Sys2Proof/Machine/Press.lean ====
section
/-! DEFINITION. The Press (chapters "Exact gradient reduction" and "The Press and versioned state"): tables, contributions, owners, the
verdict, the fence, the flip and digests. -/

namespace Sys2Proof.Machine

/-! ### State and registers -/

def getPress (ctx : Nat) (d : Dev) : Option PressSt := (d.press.find? fun p => p.1 == ctx).map (·.2)
def modPress (ctx : Nat) (f : PressSt → PressSt) (d : Dev) : Dev :=
  { d with press := d.press.map fun p => if p.1 = ctx then (p.1, f p.2) else p }
def dropPress (ctx : Nat) (d : Dev) : Dev := { d with press := d.press.filter fun p => p.1 != ctx }

/-- PRS_CTL.PHASE: 0 idle, 1 awaiting fence, 2 committing, 3 comparing, 4 stopped. -/
def setPhase (ctx n : Nat) (d : Dev) : Dev := prsW ctx PRS_CTL (putBits (prsR ctx PRS_CTL d) 4 3 n) d

/-- PRS_ERR (R399): recorded while FAULT.VALID is 0 (R109) (DEDUCED, log entry 134). -/
def pressErr (die cause ctx e addr : Nat) (d : Dev) : Dev :=
  if faultValid (.prs die) d then d
  else wr64 (.prs die) PRS_ERR_ADDR_LO addr (wr (.prs die) PRS_ERR (cause + ctx * 16 + e * 1024) d)

/-- Flag f of a context on a device, as a global address (R176, R289). -/
def flagAddr (dev ctx f : Nat) : Nat := gAddr dev 4 (ctx * 0x20000 + 8 * f)

/-! ### Tables (R355, R356, R374, R375) -/

/-- A range of this device's near store or far memory (R20, R32). -/
def memOk (a n : Nat) (d : Dev) : Bool :=
  devValid d && gDev a == ownDev d && decide (gSpace a ≤ 1) && offOk true (gSpace a) (gOff a + n - 1) d

/-- Bytes of this device at a global address, and whether they can be used: memory, not poisoned. -/
def tableBytes (ctx a n : Nat) (d : Dev) : Option (List Byte) :=
  if memOk a n d then
    match spotOf ctx a d with
    | .mem k => if anyPoison k n d then none else some (memBytes k n d)
    | _ => none
  else none

def bktOf (bs : Option (List Byte)) : BktEnt :=
  let b := bs.getD []
  let f (i n : Nat) : Nat := ofBytes ((b.drop i).take n)
  let w10 := f 0x10 8
  let w18 := f 0x18 8
  let w20 := f 0x20 8
  let w28 := f 0x28 8
  { src := f 0 8, out := f 8 8, n := bits w10 0 25 + 1, size := bits w10 25 5, uses := bits w10 32 12 + 1,
    fillFlag := bits w18 0 14, fillCount := bits w18 16 16, freeFlag := bits w18 32 14,
    arrive1 := bits w20 0 14, arrive2 := bits w20 16 14, done := bits w20 32 14,
    ax1 := bits w28 0 3, en1 := bit w28 3, ax2 := bits w28 4 3, en2 := bit w28 7, group := bits w28 8 10,
    accOff := bits (f 0x30 8) 0 46,
    bad := bs.isNone || bits w10 30 2 != 0 || bits w10 44 20 != 0 || bits w18 14 2 != 0 || bits w18 46 18 != 0 || bits w20 14 2 != 0 ||
      bits w20 30 2 != 0 || bits w20 46 18 != 0 || bits w28 18 46 != 0 || bits (f 0x30 8) 46 18 != 0 || f 0x38 8 != 0 }

def shdOf (bs : Option (List Byte)) : ShdEnt :=
  let b := bs.getD []
  let f (i n : Nat) : Nat := ofBytes ((b.drop i).take n)
  let w20 := f 0x20 8
  let w28 := f 0x28 8
  let w30 := f 0x30 8
  { master := f 0 8, mom := f 8 8, var := f 0x10 8, wc := f 0x18 8, sstride := bits w20 0 48, wfmt := bits w28 0 2, recipe := bits w28 2 2,
    trk := bits w28 4 6, momEn := bit w28 10, varEn := bit w28 11, pbase := bits w30 0 34,
    bad := bs.isNone || bits w20 48 16 != 0 || bits w28 12 52 != 0 || bits w30 34 30 != 0 || f 0x38 8 != 0 }

def len1 (b : BktEnt) (d : Dev) : Nat := if b.en1 then axisLen b.ax1 d else 1
def len2 (b : BktEnt) (d : Dev) : Nat := if b.en2 then axisLen b.ax2 d else 1

/-- A bucket entry that R356 refuses. -/
def bktBad (b : BktEnt) (d : Dev) : Bool :=
  b.bad || decide (b.size < 20) || decide (26 < b.size) || decide (2 ^ b.size < 2 * b.n) || (b.en2 && !b.en1) ||
    (b.en1 && b.en2 && b.ax1 == b.ax2) || (b.en1 && decide (4 < b.ax1)) || (b.en2 && decide (4 < b.ax2)) ||
    b.fillFlag == stitchFlag || b.freeFlag == stitchFlag || b.arrive1 == stitchFlag || b.arrive2 == stitchFlag || b.done == stitchFlag ||
    decide (65536 < b.uses * len1 b d * len2 b d)

/-- A region's slot `k`. -/
def slotAddr (base stride k : Nat) : Nat := base + k * stride

/-- A shard entry that R374 refuses: regions aligned, on this device in space 000 or 001, working copies in their windows, identities
in range (R386) (DEDUCED, log entry 82). -/
def shdBad (ctx : Nat) (b : BktEnt) (s : ShdEnt) (d : Dev) : Bool :=
  let regionBad (base size : Nat) : Bool :=
    base % 256 != 0 || s.sstride % 256 != 0 || !memOk base (s.sstride + size) d
  let w := wcSize s.wfmt b.n
  let wcOut (k : Nat) : Bool :=
    let a := slotAddr s.wc s.sstride k
    decide (a < winBase ctx k d) || decide (winBase ctx k d + winLen ctx d < a + w)
  s.bad || regionBad s.master (masterSize b.n) || (s.momEn && regionBad s.mom (momSize b.n)) || (s.varEn && regionBad s.var (momSize b.n)) ||
    regionBad s.wc w || wcOut 0 || wcOut 1 || decide (2 ^ 34 < s.pbase + b.n)

/-- The address at which a recipe's poisoned data begin (R397). -/
def recipePoison (ctx r : Nat) (d : Dev) : Option Nat :=
  let a := prs64 ctx PRS_RCP_LO d + 256 * r
  if memOk a 256 d then
    match spotOf ctx a d with
    | .mem k => ((gransOf k 256).find? fun g => poisonOf g d).map fun g => a + (g - k)
    | _ => none
  else none

/-- The recipe table: 4 recipes of 64 words. -/
def readRecipes (ctx : Nat) (d : Dev) : List (List MicroOp) :=
  (List.range 4).map fun r =>
    match tableBytes ctx (prs64 ctx PRS_RCP_LO d + 256 * r) 256 d with
    | some bs => (List.range 64).map fun i => microOf (ofBytes ((bs.drop (4 * i)).take 4))
    | none => []

/-- The tables as R374 reads them. -/
def readTables (ctx : Nat) (d : Dev) : List (BktEnt × ShdEnt) :=
  (List.range (prsR ctx PRS_BKT_N d % 8192 + 1)).map fun e =>
    (bktOf (tableBytes ctx (prs64 ctx PRS_BKT_LO d + 64 * e) 64 d), shdOf (tableBytes ctx (prs64 ctx PRS_SHD_LO d + 64 * e) 64 d))

/-- The reads of the tables (R374). -/
def touchTables (ctx : Nat) (d : Dev) : Dev :=
  let one (d : Dev) (a n : Nat) : Dev :=
    if memOk a n d then
      match spotOf ctx a d with | .mem k => readEffects k n d | _ => d
    else d
  let d := (List.range 4).foldl (fun d r => one d (prs64 ctx PRS_RCP_LO d + 256 * r) 256) d
  (List.range (prsR ctx PRS_BKT_N d % 8192 + 1)).foldl (fun d e =>
    one (one d (prs64 ctx PRS_BKT_LO d + 64 * e) 64) (prs64 ctx PRS_SHD_LO d + 64 * e) 64) d

/-- The first entry that R374 refuses. A recipe that reads as poisoned stops its entries instead (R397). -/
def tablesBad (ctx : Nat) (ents : List (BktEnt × ShdEnt)) (rs : List (List MicroOp)) (d : Dev) : Option Nat :=
  let bad (p : BktEnt × ShdEnt) : Bool :=
    bktBad p.1 d || shdBad ctx p.1 p.2 d || (recipePoison ctx p.2.recipe d).isNone && !recipeOk p.2.momEn p.2.varEn ((rs[p.2.recipe]?).getD [])
  ents.findIdx? bad

/-- The tag of a step (R389). -/
def stepTag (n : Nat) : Nat := n % 0xFFFFFFFE + 1
def noTag : Nat := 0xFFFFFFFF
def setTag (ctx k v : Nat) (d : Dev) : Dev := prsW ctx (if k = 0 then PRS_TAG0 else PRS_TAG1) v d

/-- PRS_STEP of a context. -/
def prsStep (ctx : Nat) (d : Dev) : Nat := prs64 ctx PRS_STEP_LO d

/-! ### Sending (R362, R371) -/

def modEnt (ctx e : Nat) (f : EntSt → EntSt) (d : Dev) : Dev := modPress ctx (fun p => { p with st := modNth f e p.st }) d

/-- The Press has stopped serving an entry. -/
def entStopped (ctx e : Nat) (d : Dev) : Bool := ((getPress ctx d).bind fun p => p.st[e]?).any (·.stopped)

/-- A request that serves a bucket entry: neither the verdict's nor a digest's. -/
def servesEntry : PressOp → Bool
  | .contrib | .partial_ _ | .flag => true
  | _ => false

/-- The Press stops serving an entry (R371, R397): none of its requests and multicasts that still wait goes out. -/
def pressStop (ctx e cause addr : Nat) (d : Dev) : Dev :=
  let mine (i : Issuer) : Bool := match i with | .press c x op => c == ctx && x == e && servesEntry op | _ => false
  let d := modPress ctx (fun p => { p with queue := p.queue.filter fun h => !(h.1 == e && servesEntry h.2.1) }) d
  let d := { d with net := { d.net with flows := d.net.flows.map fun f => (f.1, { f.2 with held := f.2.held.filter fun h => !mine h.1 }) } }
  mcForget ctx e (setPhase ctx 4 (pressErr (e % 4) cause ctx e addr (modEnt ctx e (fun s => { s with stopped := true }) d)))

/-- PHASE of a context none of whose entries has stopped (R397). -/
def nextPhase (ctx n : Nat) (d : Dev) : Dev := if (getPress ctx d).any (fun p => p.st.any (·.stopped)) then d else setPhase ctx n d

/-- PRS_CTL.ENABLE goes from 0 to 1 (R374, R389); an entry whose recipe is poisoned is not served (R397). Uses and steps go on from PRS_STEP, as the
flags do (R362, R403) (DEDUCED, log entry 84). -/
def pressEnabled (ctx : Nat) (d : Dev) : Dev :=
  let d := touchTables ctx d
  let ents := readTables ctx d
  let rs := readRecipes ctx d
  match tablesBad ctx ents rs d with
  | some e =>
    let d := prsW ctx PRS_CTL (putBits (prsR ctx PRS_CTL d) 0 1 0) d
    pressErr 0 1 ctx e (prs64 ctx PRS_BKT_LO d + 64 * e) (setEvent prs0 9 d)
  | none =>
    let n := prsStep ctx d
    let st := ents.map fun p => ({ uses := n * p.1.uses, step := n } : EntSt)
    let d := setTag ctx (1 - n % 2) noTag (setTag ctx (n % 2) (stepTag n) d)
    let d := dropPress ctx d
    let d := setPhase ctx 1 { d with press := d.press ++ [(ctx, { ents := ents, recipes := rs, st := st, voted := n, told := n })] }
    ents.zipIdx.foldl (fun d x => match recipePoison ctx x.1.2.recipe d with | some a => pressStop ctx x.2 2 a d | none => d) d

/-- ENABLE goes to 0. -/
def pressDisabled (ctx : Nat) (d : Dev) : Dev := setPhase ctx 0 (dropPress ctx d)

/-- A Press's request: on the device through the mesh, else on its flow; without a flow it cannot be sent, and the entry stops. A stopped entry sends
nothing (R371), and a Press that does not run holds what it has to send (R400). -/
def pressSend (ctx e : Nat) (op : PressOp) (flow : Option Nat) (q : Packet) (d : Dev) : Dev :=
  if servesEntry op && entStopped ctx e d then d
  else if !pressRuns (e % 4) d then modPress ctx (fun p => { p with queue := p.queue ++ [(e, op, flow, q)] }) d
  else if gDev q.addr = ownDev d then sendLocal (.press ctx e op) q d
  else match flow with
    | some f => sendFlow f (.press ctx e op) q d
    | none => pressStop ctx e 3 q.addr d

/-- What the Presses hold goes out in its original order, and the multicasts that wait begin (R400). -/
def pressResume (d : Dev) : Dev :=
  mcWake (d.press.foldl (fun d p =>
    p.2.queue.foldl (fun d h => pressSend p.1 h.1 h.2.1 h.2.2.1 h.2.2.2 d) (modPress p.1 (fun p => { p with queue := [] }) d)) d)

/-- FLAG_ADD of 1 on a device. -/
def pressFlagOf (op : PressOp) (ctx e dev f : Nat) (d : Dev) : Dev :=
  pressSend ctx e op (reqFlow ctx dev d) { op := .flagAdd, addr := flagAddr dev ctx f, len := 7, data := toBytes 8 1 } d
def pressFlag (ctx e dev f : Nat) (d : Dev) : Dev := pressFlagOf .flag ctx e dev f d

/-- Requests of one kind that an entry still waits for. -/
def pressWaits (ctx e : Nat) (op : PressOp) (d : Dev) : Bool :=
  (d.net.reqs.any fun r => decide (r.by_ = .press ctx e op)) ||
    (d.net.flows.any fun f => f.2.held.any fun h => decide (h.1 = .press ctx e op)) ||
    (getPress ctx d).any fun p => p.queue.any fun h => h.1 == e && decide (h.2.1 = op)

def redGroup (ctx n : Nat) (d : Dev) : Option RedSt := d.net.reds.find? fun g => g.ctx == ctx && g.n == n
def redMember (g : RedSt) (dev : Nat) : Option (Nat × Nat × Nat) := g.members.find? fun m => m.1 == dev

/-- The device at coordinate `r` of an axis (R361). -/
def rankDev (en : Bool) (ax r : Nat) (d : Dev) : Nat := if en then withCoord (ownDev d) ax r else ownDev d
def ownRank (en : Bool) (ax : Nat) (d : Dev) : Nat := if en then coordOf (ownDev d) ax else 0

/-- Part `r` of `len` of `n` elements: first element and count (R361). -/
def partOf (n len r : Nat) : Nat × Nat := (r * n / len, (r + 1) * n / len - r * n / len)

/-- The place of slice element `j` within an accumulator region (R361). -/
def accPlace (off j : Nat) : Nat := off + j / 102 * 4096 + j % 102 * 40

/-- Runs of a range of slice elements that share a page: first element and count. -/
def pageRuns : Nat → Nat → Nat → List (Nat × Nat)
  | 0, _, _ => []
  | k + 1, j, n => if n = 0 then [] else
    let c := min n (102 - j % 102)
    (j, c) :: pageRuns k (j + c) (n - c)

/-- An ADD of elements to a member's accumulator (R361, R362). -/
def addTo (ctx e : Nat) (op : PressOp) (b : BktEnt) (m : Nat × Nat × Nat) (j : Nat) (es : List (Esf × Bool)) (d : Dev) : Dev :=
  let data := es.flatMap fun x => x.1.bytes
  let ps := es.flatMap fun x => List.replicate 40 x.2
  pressSend ctx e op (some m.2.2) { op := .add, cls := clRed, addr := m.2.1 + accPlace b.accOff j, len := data.length - 1, atype := 4,
                                    aux0 := b.group, aux1 := 1, data := data, poison := flitPoison ps data.length } d

/-! ### Contributions (R362) -/

/-- BF16 elements of this device from a global address, each with its poison. -/
def readBf16 (ctx a n : Nat) (d : Dev) : Dev × List (Nat × Bool) :=
  match spotOf ctx a d with
  | .mem k =>
    let d := readEffects k (2 * n) d
    (d, (List.range n).map fun i => (ofBytes (memBytes (k + 2 * i) 2 d), poisonOf (k + 2 * i) d))
  | _ => (d, [])

/-- The use that entry `e` has ready to send. -/
def useReady (ctx : Nat) (p : PressSt) (e : Nat) (d : Dev) : Option (BktEnt × EntSt) :=
  match p.ents[e]?, p.st[e]? with
  | some (b, _), some s =>
    let n := s.uses / b.uses
    if s.stopped || s.sending || !flagReached ctx b.fillFlag ((s.uses + 1) * b.fillCount) d ||
        (s.uses % b.uses == 0 && n != 0 && !flagReached ctx b.done (n * len1 b d * len2 b d) d) then none
    else some (b, s)
  | _, _ => none

/-- What follows when every contribution of a use has been acknowledged. -/
def contribEnded (ctx e : Nat) (d : Dev) : Dev :=
  match getPress ctx d with
  | some p => match p.ents[e]?, p.st[e]? with
    | some (b, _), some s =>
      if s.sending && !s.stopped && !pressWaits ctx e .contrib d then
        let d := modEnt ctx e (fun s => { s with sending := false, uses := s.uses + 1 }) d
        (List.range (len1 b d)).foldl (fun d r => pressFlag ctx e (rankDev b.en1 b.ax1 r d) b.arrive1 d) d
      else d
    | _, _ => d
  | none => d

/-- PRESS_USE_SEND (R362): one use of an entry is widened and added to its owners, and SRC is freed. A SRC that is no range of the near store is an
access refused at its source (R20, R355). The command names the event that is served: R356 has a die's events served in the order in which they become
ready, and states that the order never changes a result (DEDUCED, log entry 144). -/
def pressUse (ctx e : Nat) (d : Dev) : Dev :=
  match getPress ctx d with
  | some p => match useReady ctx p e d with
    | some (b, _) =>
      if !pressRuns (e % 4) d then d
      else if !memOk b.src (2 * b.n) d || gSpace b.src != 0 then pressStop ctx e 3 b.src d
      else match redGroup ctx b.group d with
        | none => pressStop ctx e 3 b.src d
        | some g =>
          let d := readEffects (flagKey ctx b.fillFlag) 8 d
          let d := modEnt ctx e (fun s => { s with sending := true }) d
          let r := readBf16 ctx b.src b.n d
          let d := (List.range (len1 b d)).foldl (fun d rank =>
            let sl := partOf b.n (len1 b d) rank
            match redMember g (rankDev b.en1 b.ax1 rank d) with
            | none => pressStop ctx e 3 b.src d
            | some m => (pageRuns (sl.2 / 102 + 2) 0 sl.2).foldl (fun d run =>
                let es := ((r.2.drop (sl.1 + run.1)).take run.2).map fun x => (Esf.widen x.1, x.2)
                addTo ctx e .contrib b m run.1 es d) d) r.1
          contribEnded ctx e (unitFlag ctx b.freeFlag 1 d)
    | none => d
  | none => d

/-! ### Owners (R362, R367, R368) -/

/-- The range that this device owns: its slice, and the sub-slice within it, as elements of the slice. -/
def ownedPart (b : BktEnt) (d : Dev) : (Nat × Nat) × (Nat × Nat) :=
  let sl := partOf b.n (len1 b d) (ownRank b.en1 b.ax1 d)
  (sl, partOf sl.2 (len2 b d) (ownRank b.en2 b.ax2 d))

/-- Accumulator elements of this device, each with its poison. -/
def readAcc (ctx base off j n : Nat) (d : Dev) : Dev × List (Nat × Esf × Bool) :=
  (List.range n).foldl (fun r i =>
    let a := base + accPlace off (j + i)
    match memOk a 40 r.1, spotOf ctx a r.1 with
    | true, .mem k =>
      let d := readEffects k 40 r.1
      (d, r.2 ++ [(a, Esf.ofBytes (memBytes k 40 d), anyPoison k 40 d)])
    | _, _ => (r.1, r.2 ++ [(a, Esf.zero, true)])) (d, [])

def writeAt (ctx a : Nat) (bs : List Byte) (d : Dev) : Dev :=
  match memOk a bs.length d, spotOf ctx a d with
  | true, .mem k => memPut k bs d
  | _, _ => d

/-- V = 0 and no flags over accumulator elements. -/
def zeroAcc (ctx base off j n : Nat) (d : Dev) : Dev :=
  (List.range n).foldl (fun d i => writeAt ctx (base + accPlace off (j + i)) (toBytes 40 0) d) d

/-- The multicast of a rounded range, in pieces that no 4,096-byte boundary of OUT cuts. -/
def queueOut (ctx e mc : Nat) (base : Nat) : Nat → Nat → List Byte → Dev → Dev
  | 0, _, _, d => d
  | k + 1, a, bs, d =>
    if bs.isEmpty then d
    else
      let n := min bs.length (4096 - a % 4096)
      queueOut ctx e mc base k (a + n) (bs.drop n) (mcQueue mc { off := a - base, data := bs.take n, ctx := ctx, ent := some e } d)

/-- DONE on every member, the device itself included. -/
def sendDone (ctx e : Nat) (d : Dev) : Dev :=
  match getPress ctx d with
  | some p => match p.ents[e]? with
    | some (b, _) =>
      let ms := ((redGroup ctx b.group d).map fun g => g.members.map (·.1)).getD []
      let ms := if ms.contains (ownDev d) then ms else ownDev d :: ms
      ms.foldl (fun d m => pressFlag ctx e m b.done d) d
    | none => d
  | none => d

/-- The owner rounds its range, writes it to OUT, zeroes the accumulator and multicasts. -/
def roundOwned (ctx e : Nat) (b : BktEnt) (g : RedSt) (base : Nat) (d : Dev) : Dev :=
  let o := ownedPart b d
  let r := readAcc ctx base b.accOff o.2.1 o.2.2 d
  let a := b.out + 2 * (o.1.1 + o.2.1)
  match r.2.find? fun x => x.2.2 with
  | some x => pressStop ctx e 2 x.1 r.1
  | none =>
    if !memOk a (2 * o.2.2) d then pressStop ctx e 3 a r.1
    else
    let n := ((getPress ctx d).bind fun p => p.st[e]?).elim 0 (·.step)
    let codes := r.2.map fun x => x.2.1.round
    let bytes := codes.flatMap (toBytes 2)
    let d := zeroAcc ctx base b.accOff o.2.1 o.2.2 (writeAt ctx a bytes r.1)
    let bad := codes.any fun c => bits c 7 8 == 255
    let d := modPress ctx (fun p => { p with nonfin := if bad then n :: p.nonfin else p.nonfin }) d
    let d := modEnt ctx e (fun s => { s with step := s.step + 1, parted := false }) d
    match ownGroup g.mc d with
    | some mg =>
      if (farMembers mg d).isEmpty || bytes.isEmpty then sendDone ctx e d
      else queueOut ctx e g.mc ((ownBase mg d).getD 0) (bytes.length / 4096 + 2) a bytes d
    | none => sendDone ctx e d

/-- Stage-2 partials to every other rank (R362). -/
def sendPartials (ctx e : Nat) (b : BktEnt) (g : RedSt) (base : Nat) (d : Dev) : Dev :=
  let sl := (ownedPart b d).1
  (List.range (len2 b d)).foldl (fun d r =>
    if r = ownRank b.en2 b.ax2 d then d
    else match redMember g (rankDev b.en2 b.ax2 r d) with
      | none => pressStop ctx e 3 (base + b.accOff) d
      | some m =>
        let sub := partOf sl.2 (len2 b d) r
        let d := (pageRuns (sub.2 / 102 + 2) sub.1 sub.2).foldl (fun d run =>
          let es := readAcc ctx base b.accOff run.1 run.2 d
          addTo ctx e (.partial_ r) b m run.1 (es.2.map fun x => (x.2.1, x.2.2)) es.1) d
        let d := zeroAcc ctx base b.accOff sub.1 sub.2 d
        if sub.2 = 0 then pressFlag ctx e m.1 b.arrive2 d else d) d

/-- PRESS_OWNER_ROUND (R362, R367, R368). -/
def pressOwner (ctx e : Nat) (d : Dev) : Dev :=
  match getPress ctx d with
  | some p => match p.ents[e]?, p.st[e]? with
    | some (b, _), some s =>
      let d' := readEffects (flagKey ctx b.arrive1) 8 d
      if s.stopped || !pressRuns (e % 4) d then d
      else match redGroup ctx b.group d with
        | none => d
        | some g => match redMember g (ownDev d) with
          | none => d
          | some m =>
            if !s.parted then
              if !flagReached ctx b.arrive1 ((s.step + 1) * len1 b d * b.uses) d then d
              else if b.en2 then sendPartials ctx e b g m.2.1 (modEnt ctx e (fun s => { s with parted := true }) d')
              else roundOwned ctx e b g m.2.1 d'
            else if flagReached ctx b.arrive2 ((s.step + 1) * (len2 b d - 1)) d then roundOwned ctx e b g m.2.1 d'
            else d
    | _, _ => d
  | none => d

/-! ### The verdict (R369, R370) -/

/-- VERDICT_CONTRIBUTE (R369). A verdict word outside the address space is refused at its source (R20, R32). -/
def verdictContribute (ctx : Nat) (d : Dev) : Dev :=
  match getPress ctx d with
  | some p =>
    if !pressRuns 0 d || !(p.st.all fun s => decide (p.voted < s.step)) then d
    else
      let a := prs64 ctx PRS_VWORD_LO d
      if !addrOk a d || !addrOk (a + 7) d || 2 < gSpace a then pressStop ctx 0 3 a d
      else
      let g := redGroup ctx (prsR ctx PRS_VGRP d % 1024) d
      let flow := (g.bind fun g => redMember g (gDev a)).map (·.2.2)
      let v := b2n (p.nonfin.contains p.voted)
      let d := modPress ctx (fun p => { p with voted := p.voted + 1, nonfin := p.nonfin.filter (p.voted < ·) }) d
      pressSend ctx 0 .verdict flow { op := .add, cls := clRed, addr := a, len := 7, atype := 1, aux0 := prsR ctx PRS_VGRP d % 1024, aux1 := 1,
                                      data := toBytes 8 v } d
  | none => d

/-- The verdict flag of a device. -/
def sendVerdict (ctx dev : Nat) (d : Dev) : Dev := pressFlagOf .verdictFlag ctx 0 dev (bits (prsR ctx PRS_VFLAGS d) 0 14) d

/-- The verdict flag on every device of the job. -/
def sendVerdicts (ctx n : Nat) (d : Dev) : Dev :=
  match ownGroup n d with
  | some g => (g.members.map (·.1)).foldl (fun d m => sendVerdict ctx m d) d
  | none => d

/-- VERDICT_BROADCAST (R370), at the root. A group with no other member has nothing to wait for. -/
def verdictBroadcast (ctx : Nat) (d : Dev) : Dev :=
  match getPress ctx d with
  | some p =>
    let a := prs64 ctx PRS_VWORD_LO d
    let f := bits (prsR ctx PRS_VFLAGS d) 16 14
    let mg := bits (prsR ctx PRS_VGRP d) 16 10
    if gDev a != ownDev d || !pressRuns 0 d || !flagReached ctx f ((p.told + 1) * (prsR ctx PRS_VDEV d % 32768 + 1)) d then d
    else match spotOf ctx a d with
      | .mem k =>
        let d := readEffects k 8 (readEffects (flagKey ctx f) 8 d)
        if anyPoison k 8 d then pressStop ctx 0 2 a d
        else
          let v := memNat k 8 d
          let diff := (v + 2 ^ 64 - prs64 ctx PRS_VPREV_LO d) % 2 ^ 64
          let d := wrB64 prs0 PRS_VPREV_LO ctx v (modPress ctx (fun p => { p with told := p.told + 1, verdict := diff }) d)
          match ownGroup mg d with
          | some g =>
            if (farMembers g d).isEmpty then
              sendVerdicts ctx mg (match ownBase g d with | some b => (mcStore g.ctx b 0 (toBytes 8 diff) [] d).getD d | none => d)
            else mcQueue mg { off := 0, data := toBytes 8 diff, ctx := ctx, ent := none } d
          | none => sendVerdict ctx (ownDev d) d
      | _ => d
  | none => d

/-- A multicast transfer has landed everywhere: when it was its entry's last, DONE follows, unless the entry has stopped (R371); after the
verdict, its flag. -/
def mcastLanded (n : Nat) (d : Dev) : Dev :=
  let r := mcEnded n d
  match r.1 with
  | some x => match x.ent with
    | none => if entStopped x.ctx 0 r.2 then r.2 else sendVerdicts x.ctx n r.2
    | some e =>
      if entStopped x.ctx e r.2 || (ownGroup n r.2).any fun g => g.todo.any fun y => y.ctx == x.ctx && y.ent == some e then r.2 else sendDone x.ctx e r.2
  | none => r.2

/-- The verdict value as this device holds it (R370). -/
def verdictHere (ctx : Nat) (p : PressSt) (d : Dev) : Nat :=
  match findGroup (bits (prsR ctx PRS_VGRP d) 16 10) (gDev (prs64 ctx PRS_VWORD_LO d)) d with
  | some g => match ownBase g d with
    | some a => match spotOf g.ctx a d with
      | .mem k => memNat k 8 d
      | _ => p.verdict
    | none => p.verdict
  | none => p.verdict

/-! ### Answers -/

/-- A request of a Press has been acknowledged. -/
def pressAnswered (ctx e : Nat) (op : PressOp) (d : Dev) : Dev :=
  match getPress ctx d with
  | none => d
  | some p =>
    match op with
    | .contrib => contribEnded ctx e d
    | .partial_ r =>
      if pressWaits ctx e op d then d
      else match p.ents[e]? with
        | some (b, _) => pressFlag ctx e (rankDev b.en2 b.ax2 r d) b.arrive2 d
        | none => d
    | .flag | .verdictFlag | .digestFlag => d
    | .verdict => pressFlagOf .verdictFlag ctx 0 (gDev (prs64 ctx PRS_VWORD_LO d)) (bits (prsR ctx PRS_VFLAGS d) 16 14) d
    | .digest die =>
      if pressWaits ctx e op d then d
      else
        let cfg := prsR ctx PRS_DG_CFG d
        let ax := bits cfg 0 3
        let peer := withCoord (ownDev d) ax ((coordOf (ownDev d) ax + 1) % axisLen ax d)
        pressFlagOf .digestFlag ctx die peer (bits cfg 4 14) d

/-- A NACK to a reduction operation stops the entry (R371). A digest or its flag is no reduction operation: it ends there. -/
def pressNacked (ctx e : Nat) (op : PressOp) (addr : Nat) (d : Dev) : Dev :=
  match op with
  | .digest _ | .digestFlag => d
  | _ => pressStop ctx e 3 addr d

/-! ### The fence and the commit (R376, R377) -/

/-- The bytes of a region of this device, and the address of the first poisoned byte. -/
def readRegion (ctx a n : Nat) (d : Dev) : Dev × List Byte × Option Nat :=
  match memOk a n d, spotOf ctx a d with
  | true, .mem k =>
    let d := readEffects k n d
    (d, memBytes k n d, ((gransOf k n).find? fun g => poisonOf g d).map fun g => a + (g - k))
  | _, _ => (d, List.replicate n 0, some a)

/-- The slot that step `n` reads. -/
def slotOfStep (n : Nat) : Nat := n % 2

/-- A shard's regions in slot `k` in the order of R394: address and size. -/
def regionsAt (b : BktEnt) (s : ShdEnt) (k : Nat) : List (Nat × Nat) :=
  [(slotAddr s.master s.sstride k, masterSize b.n)] ++ (if s.momEn then [(slotAddr s.mom s.sstride k, momSize b.n)] else []) ++
  (if s.varEn then [(slotAddr s.var s.sstride k, momSize b.n)] else []) ++ [(slotAddr s.wc s.sstride k, wcSize s.wfmt b.n)]

/-- Regions written in slot `k` with their bytes. -/
def writeRegions (ctx : Nat) (ws : List (Nat × List Byte)) (d : Dev) : Dev := ws.foldl (fun d w => writeAt ctx w.1 w.2 d) d

/-- A skipped step copies every region (R377). -/
def copyEntry (ctx : Nat) (b : BktEnt) (s : ShdEnt) (p : Nat) (d : Dev) : Dev × List Byte × Option Nat :=
  let rs := (regionsAt b s p).zip (regionsAt b s (1 - p))
  rs.foldl (fun acc r =>
    match acc.2.2 with
    | some _ => acc
    | none =>
      let x := readRegion ctx r.1.1 r.1.2 acc.1
      match x.2.2 with
      | some a => (x.1, acc.2.1, some a)
      | none => (writeAt ctx r.2.1 x.2.1 x.1, acc.2.1 ++ x.2.1, none)) (d, [], none)

/-- The parameters of an entry under its recipe: what is written in slot 1 − p, what the tracker records, and whether
NONFINITE_STATE is set. -/
def runEntry (ctx n : Nat) (b : BktEnt) (s : ShdEnt) (body : List MicroOp) (ks : List Nat) (exp : Int) (grad master mom var : List Byte) (d : Dev) :
    List (List Byte) × List FVal × Bool :=
  let key := prs64 ctx PRS_RNG_KEY_LO d
  let ls := signed 8 (prsR ctx PRS_LS d % 256)
  let ms := momRead true b.n mom
  let us := momRead false b.n var
  let outs := (List.range b.n).map fun i =>
    runRecipe ks { g := loadGrad ls (ofBytes ((grad.drop (2 * i)).take 2)), w := ofBytes ((master.drop (4 * i)).take 4),
                   m := (ms.1[i]?).getD 0, u := (us.1[i]?).getD 0 } body (List.replicate 16 0) {}
  let rnd (k s' : Nat) (i : Nat) : Rnd := pressRnd key n s.pbase i s' k
  let mE := momEncode true (outs.zipIdx.map fun o => (o.1.m.1, rnd o.1.m.2 0 o.2))
  let uE := momEncode false (outs.zipIdx.map fun o => (o.1.u.1, rnd o.1.u.2 1 o.2))
  let wc := wcEncode s.wfmt exp (outs.zipIdx.map fun o => (o.1.c.1, rnd o.1.c.2 2 o.2))
  let parts := [outs.flatMap fun o => toBytes 4 o.w] ++ (if s.momEn then [mE.1] else []) ++ (if s.varEn then [uE.1] else []) ++ [wc]
  (parts, outs.map fun o => f32 o.c.1, (s.momEn && (mE.2 || ms.2)) || (s.varEn && (uE.2 || us.2)))

def trkCfg (n : Nat) : Nat := bankKey prs0 PRS_TRK_CFG n
def trkCur (n : Nat) : Nat := bankKey prs0 PRS_TRK_CUR n
def trkHist (n i : Nat) : Nat := bankKey prs0 PRS_TRK_HIST (16 * n + i)

/-- One entry of a commit with a finite verdict; the result says where poisoned data stopped it. -/
def updateEntry (ctx n e : Nat) (p : PressSt) (ks : List Nat) (exps : List Int) (b : BktEnt) (s : ShdEnt) (d : Dev) : Dev × List Byte × Option Nat :=
  let k := slotOfStep n
  let body := ((recipeBody ((p.recipes[s.recipe]?).getD [])).getD [])
  let g := readRegion ctx b.out (2 * b.n) d
  let w := readRegion ctx (slotAddr s.master s.sstride k) (masterSize b.n) g.1
  let m := if s.momEn then readRegion ctx (slotAddr s.mom s.sstride k) (momSize b.n) w.1 else (w.1, [], none)
  let u := if s.varEn then readRegion ctx (slotAddr s.var s.sstride k) (momSize b.n) m.1 else (m.1, [], none)
  match (((g.2.2.orElse fun _ => w.2.2).orElse fun _ => m.2.2).orElse fun _ => u.2.2) with
  | some a => (u.1, [], some a)
  | none =>
    let r := runEntry ctx n b s body ((ks.drop (16 * s.recipe)).take 16) ((exps[s.trk]?).getD 0) g.2.1 w.2.1 m.2.1 u.2.1 d
    let d := writeRegions ctx (((regionsAt b s (1 - k)).map (·.1)).zip r.1) u.1
    let d := wrKey (trkCfg s.trk) (recordCfg (rdKey d (trkCfg s.trk)) r.2.1) (wrKey (trkCur s.trk) (recordCur (rdKey d (trkCur s.trk)) r.2.1) d)
    let d := modPress ctx (fun p => { p with recorded := if p.recorded.contains s.trk then p.recorded else p.recorded ++ [s.trk] }) d
    (if r.2.2 then setEvent (.prs (e % 4)) 8 d else d, r.1.flatten, none)

/-- The entries of a commit in ascending order, and the dies whose Presses finished them: poisoned data stops its entry (R397)
(DEDUCED, log entry 85). -/
def commitEntries (ctx n : Nat) (skip : Bool) (p : PressSt) (ks : List Nat) (exps : List Int) : List ((BktEnt × ShdEnt) × Nat) → Dev → Dev × List Nat
  | [], d => (d, [0, 1, 2, 3])
  | ((b, s), e) :: es, d =>
    let r := if skip then copyEntry ctx b s (slotOfStep n) d else updateEntry ctx n e p ks exps b s d
    match r.2.2 with
    | some a =>
      let x := commitEntries ctx n skip p ks exps es (pressStop ctx e 2 a r.1)
      (x.1, x.2.filter (· != e % 4))
    | none =>
      let d := bump64 (.prs (e % 4)) PRS_PARAMS_LO b.n r.1
      let d := modPress ctx (fun p => { p with digests := p.digests ++ [(e, entryDigest n e b.n r.2.1)] }) d
      commitEntries ctx n skip p ks exps es d

/-- The conditions of the fence (R376). -/
def fenceReady (ctx : Nat) (p : PressSt) (d : Dev) : Bool :=
  let n := prsStep ctx d
  (p.ents.all fun x => flagReached ctx x.1.done ((n + 1) * len1 x.1 d * len2 x.1 d) d) &&
  flagReached ctx (bits (prsR ctx PRS_VFLAGS d) 0 14) (n + 1) d &&
  flagReached ctx (bits (prsR ctx PRS_FLAGS d) 0 14) ((n + 1) * (prsR ctx PRS_FENCE_CNT d % 65536)) d &&
  p.compare.isEmpty && !p.committed && bits (prsR ctx PRS_CTL d) 4 3 == 1

/-- The four Presses of the device work. -/
def allPressRun (d : Dev) : Bool := (List.range 4).all fun k => pressRuns k d

/-- PRESS_FENCE (R376, R377): the constants are latched and every entry is committed, or slot p is copied. -/
def pressFence (ctx : Nat) (d : Dev) : Dev :=
  match getPress ctx d with
  | some p =>
    if !allPressRun d || !fenceReady ctx p d then d
    else
      let n := prsStep ctx d
      let d := setPhase ctx 2 (setTag ctx (1 - slotOfStep n) noTag d)
      let bad := verdictHere ctx p d != 0
      let ka := prs64 ctx PRS_RCP_LO d + 1024
      let kr := readRegion ctx ka 256 d
      let ks := (List.range 64).map fun i => ofBytes ((kr.2.1.drop (4 * i)).take 4)
      let exps := (List.range 64).map fun i => trkExp (rdKey d (trkCfg i))
      let d := modPress ctx (fun p => { p with recorded := [], digests := [] }) kr.1
      match kr.2.2 with
      | some a => pressStop ctx 0 2 a d
      | none =>
        let d := if bad then
            (List.range 4).foldl (fun d k => bump (.prs k) PRS_SKIPS 1 d) (latch prs0 cNonfiniteStep d)
          else d
        let r := commitEntries ctx n bad p ks exps p.ents.zipIdx d
        let d := r.2.foldl (fun d k => bump (.prs k) PRS_COMMITS 1 d) r.1
        if r.2.length = 4 then modPress ctx (fun p => { p with committed := true, skipped := bad }) d else d
  | none => d

/-! ### The flip (R378, R393, R395) -/

/-- The loss scale moves (R393). -/
def lossScale (ctx : Nat) (bad : Bool) (d : Dev) : Dev :=
  let ls := prsR ctx PRS_LS d
  let cfg := prsR ctx PRS_LSCFG d
  let exp := signed 8 (bits ls 0 8)
  let good := bits ls 8 16
  let lo := signed 8 (bits cfg 0 8)
  let hi := signed 8 (bits cfg 8 8)
  let growth := bits cfg 20 12
  let r : Int × Nat :=
    if bad then (max (exp - (bits cfg 16 4 : Int)) lo, 0)
    else if growth != 0 && (good + 1) % 65536 == growth then (min (exp + 1) hi, 0)
    else (exp, (good + 1) % 65536)
  prsW ctx PRS_LS (wrap 8 r.1 + r.2 * 256) d

/-- The digests of a step go to the plus-side neighbour on the digest axis (R395) (DEDUCED, log entry 86). -/
def sendDigests (ctx n : Nat) (p : PressSt) (d : Dev) : Dev :=
  let cfg := prsR ctx PRS_DG_CFG d
  let ax := bits cfg 0 3
  if !bit cfg 3 || axisLen ax d ≤ 1 then setPhase ctx 1 d
  else
    let peer := withCoord (ownDev d) ax ((coordOf (ownDev d) ax + 1) % axisLen ax d)
    let inbox := prs64 ctx PRS_DG_LO d
    let d := setPhase ctx 3 (modPress ctx (fun p => { p with compare := List.range 4 }) d)
    (List.range 4).foldl (fun d die =>
      let mine := p.digests.filter fun x => x.1 % 4 == die
      if mine.isEmpty then pressFlagOf .digestFlag ctx die peer (bits cfg 4 14) d
      else mine.foldl (fun d x => pressSend ctx die (.digest die) (reqFlow ctx peer d)
        { op := .put, addr := gAddr peer 0 (gOff inbox + n % 2 * 0x40000 + 32 * x.1), len := 31, data := x.2 } d) d) d

/-- The flip of a committed step at a Stitch (R378); an entry that has stopped since keeps it from falling (R397). -/
def pressFlip (ctx : Nat) (d : Dev) : Dev :=
  match getPress ctx d with
  | some p =>
    if !p.committed || p.st.any (·.stopped) || !allPressRun d then d
    else
      let n := prsStep ctx d
      let d := wrB64 prs0 PRS_STEP_LO ctx (n + 1) d
      let d := lossScale ctx p.skipped (setTag ctx (slotOfStep (n + 1)) (stepTag (n + 1)) d)
      let d := p.recorded.foldl (fun d t => advanceTracker (trkCfg t) (trkCur t) (trkHist t) d) d
      let d := unitFlag ctx (bits (prsR ctx PRS_FLAGS d) 16 14) 1 d
      sendDigests ctx n p (modPress ctx (fun p => { p with committed := false, recorded := [] }) d)
  | none => d

/-- DIGEST_COMPARE (R395, R396): the Press of a die compares its digests with the inbox. -/
def digestCompare (ctx die : Nat) (d : Dev) : Dev :=
  match getPress ctx d with
  | some p =>
    let cfg := prsR ctx PRS_DG_CFG d
    let n := prsStep ctx d - 1
    if !p.compare.contains die || !pressRuns die d || !flagReached ctx (bits cfg 4 14) (4 * (n + 1)) d then d
    else
      let ax := bits cfg 0 3
      let inbox := prs64 ctx PRS_DG_LO d + n % 2 * 0x40000
      let mine := p.digests.filter fun x => x.1 % 4 == die
      let d := modPress ctx (fun p => { p with compare := p.compare.filter (· != die) }) (readEffects (flagKey ctx (bits cfg 4 14)) 8 d)
      let differs (x : Nat × List Byte) : Bool := (readRegion ctx (inbox + 32 * x.1) 32 d).2.1 != x.2
      let d := mine.foldl (fun d x => (readRegion ctx (inbox + 32 * x.1) 32 d).1) d
      let d := match mine.find? differs with
        | some x =>
          let peer := withCoord (ownDev d) ax ((coordOf (ownDev d) ax + axisLen ax d - 1) % axisLen ax d)
          let d := latchWith (.prs die) cDigestMismatch (fun d =>
            wr64 (.prs die) PRS_DGM_STEP_LO n (wr (.prs die) PRS_DGM_PEER peer (wr (.prs die) PRS_DGM (x.1 + ctx * 8192) d))) d
          { d with tck := { d.tck with stops := d.tck.stops ++ [(ctx, 7)] } }
        | none => d
      if (getPress ctx d).any fun p => p.compare.isEmpty then nextPhase ctx 1 d else d
  | none => d

/-! ### Windows (R389, R390, R392) -/

/-- The contexts whose Presses serve, with the window that holds a byte of this device, as (context, window). -/
def windowAt (a : Nat) (d : Dev) : Option (Nat × Nat) :=
  (d.press.flatMap fun p => [(p.1, 0), (p.1, 1)]).find? fun w =>
    decide (winBase w.1 w.2 d ≤ a) && decide (a < winBase w.1 w.2 d + winLen w.1 d)

/-- The version tag of a read of near store or far memory (R390). -/
def tagAt (key : Nat) (d : Dev) : Nat :=
  if 1 < keySpace key then 0
  else match windowAt (keyAddr key d) d with
    | some w => prsR w.1 (if w.2 = 0 then PRS_TAG0 else PRS_TAG1) d
    | none => 0

/-! ### The commands -/

/-- PRESS_USE_SEND (R362). -/
def execPressUseSend (ctx e : Nat) (s : State) := s.onDev (pressUse ctx e)
/-- PRESS_OWNER_ROUND (R362, R367). -/
def execPressOwnerRound (ctx e : Nat) (s : State) := s.onDev (pressOwner ctx e)
/-- VERDICT_CONTRIBUTE (R369). -/
def execVerdictContribute (ctx : Nat) (s : State) := s.onDev (verdictContribute ctx)
/-- VERDICT_BROADCAST (R370). -/
def execVerdictBroadcast (ctx : Nat) (s : State) := s.onDev (verdictBroadcast ctx)
/-- DIGEST_COMPARE (R395). -/
def execDigestCompare (ctx d : Nat) (s : State) := s.onDev (digestCompare ctx d)

end Sys2Proof.Machine
end

