-- ==== Sys2Proof/Machine/Seam.lean ====
section
/-! DEFINITION. The seam barrier as a device holds it (R206 to R209, R268). -/

namespace Sys2Proof.Machine

def seamInit (_ : Nat) : SeamSt := {}
def getSeam (ctx : Nat) (d : Dev) : SeamSt := Sparse.get seamInit d.tck.seams ctx
def setSeam (ctx : Nat) (s : SeamSt) (d : Dev) : Dev :=
  { d with tck := { d.tck with seams := Sparse.set seamInit d.tck.seams ctx s } }
def modSeam (ctx : Nat) (f : SeamSt → SeamSt) (d : Dev) : Dev := setSeam ctx (f (getSeam ctx d)) d

/-- The cores bound in a context, in the order of R205: by type, then by logical number. -/
def ctxCores (ctx : Nat) (d : Dev) : List CoreRef :=
  (d.binds.filter fun p => p.1 / 1024 == ctx).filterMap fun p => if p.2 = 0 then none else some (coreOfKey (p.2 - 1))

/-- Every enabled stream of every bound core of the context has arrived; without bound cores the device counts as arrived (R206). -/
def allArrived (ctx : Nat) (d : Dev) : Bool :=
  (ctxCores ctx d).all fun c => (List.range (nStreams c)).all fun n => !streamOn c n d || (getStream c n d).seam

/-- The device's own part of the barrier stands: it has arrived, or has no core bound there. -/
def ownThere (ctx : Nat) (d : Dev) : Bool := (getSeam ctx d).own.isSome || (ctxCores ctx d).isEmpty

/-- The subtree's arrival is joined (R206): own arrival, and a message from each child. A held arrival travels as held (R268). -/
def joined (ctx : Nat) (d : Dev) : Bool :=
  ownThere ctx d && (childLinks d).all fun l => (getSeam ctx d).kids.any fun k => k.1 == l

def anyHeld (ctx : Nat) (d : Dev) : Bool := let s := getSeam ctx d; s.held || s.kids.any (·.2)

/-- The joined arrival goes up: every block to the parent repeats it from now on (R206, R306). -/
def seamUp (ctx : Nat) (d : Dev) : Dev :=
  if joined ctx d && !(getSeam ctx d).sent then modSeam ctx (fun s => { s with sent := true }) d else d

/-- SEAM_ARRIVAL_MESSAGE (R206): a child's arrival, held or not. -/
def seamMessage (link ctx : Nat) (held : Bool) (d : Dev) : Dev :=
  if ctx < 64 && (childLinks d).contains link then
    seamUp ctx (modSeam ctx (fun s => { s with kids := s.kids.filter (fun k => k.1 != link) ++ [(link, held)] }) d)
  else d

/-- A capture or a refit still withholds the device's arrival (R268, R402). -/
def withheld (ctx : Nat) (d : Dev) : Bool :=
  (d.snap.any fun p => p.1 == ctx && p.2.capturing) || d.jobs.any fun j => j.ctx == ctx && j.due

/-- The device's hold ends, unless another withholds it still, and its arrival goes on (R268, R402). An arrival that HOLD_LIMIT took back
is made now. -/
def seamRelease (ctx : Nat) (d : Dev) : Dev :=
  if withheld ctx d then d
  else seamUp ctx (modSeam ctx (fun s => { s with held := false, own := if s.own.isNone && allArrived ctx d then some (stitchNum d) else s.own }) d)

/-- REFIT_HOLD_EXPIRY (R268, R422): the hold bit is dropped. What is withheld, here or by a child, counts as not arrived from now on. -/
def holdDropped (ctx : Nat) (d : Dev) : Dev :=
  let w := withheld ctx d
  modSeam ctx (fun s => { s with held := false, sent := s.sent && !w && s.kids.all (!·.2), own := if w then none else s.own,
                                 kids := s.kids.filter (!·.2) }) d

/-- REFIT_HOLD_EXPIRY (R268). -/
def execRefitHoldExpiry (ctx : Nat) (s : State) := s.onDev (holdDropped ctx)

/-- SEAM_ARRIVAL_MESSAGE (R206). -/
def execSeamArrivalMessage (link ctx : Nat) (held : Bool) (s : State) := s.onDev (seamMessage link ctx held)

end Sys2Proof.Machine
end

