-- ==== Sys2Proof/Machine/Arm.lean ====
section
/-! DEFINITION. Coordinated change (R211 to R216): armed lists of pairs and context entries as TCK and the blocks hold them. What a block does
at the Stitch is in Machine/Stitch.lean. -/

namespace Sys2Proof.Machine

/-! ### Locations (R60 to R64) -/

/-- The physical offset that an offset of BAR0 names for an origin: the logical-core window leads to the core window of the slot bound (R64);
none where the core is not bound. -/
def physOffset (org : Org) (a : Nat) (d : Dev) : Option Nat :=
  if 0x0C000000 ≤ a && a < 0x0E000000 then
    let ctx := if org.cls = 2 then org.id - 1 else rdF .pci PCI_LCW 0 6 d
    (boundCore ctx 0 ((a - 0x0C000000) / 0x20000) d).map fun c => coreBase c + a % 0x20000
  else some a

/-- The block at an offset: absent windows hold none (R53). -/
def presentBlk (a : Nat) (d : Dev) : Option Blk :=
  match blkAt a with
  | some b => if blkOk b && !(match blkCore b with | some c => slotAbsent c d | none => false) then some b else none
  | none => none

def blkOf (org : Org) (a : Nat) (d : Dev) : Option Blk := (physOffset org a d).bind fun p => presentBlk p d

/-- WPERM allows a class (R56). -/
def allows (b : Blk) (cls : Nat) (d : Dev) : Bool := bit (rd b R_WPERM d) cls

/-- The entry of a write that is denied, with its code; `armed` for an armed apply (R58, R213, R487). -/
def logDenied (armed : Bool) (org : Org) (addr old new code : Nat) (d : Dev) : Dev :=
  appendLog { cls := org.cls, id := org.id, addr := addr, old := old, new := new, denied := true, armed := armed, code := code } d

/-! ### The table of 16 entries -/

def modTck (f : TckSt → TckSt) (d : Dev) : Dev := { d with tck := f d.tck }

/-- FREE shows the entries not in use. -/
def armSync (d : Dev) : Dev := wrF .tck TCK_ARM_STAT 0 5 (16 - d.tck.armed.length) d

def freeEntry (d : Dev) : Option Nat := (List.range 16).find? fun e => !d.tck.armed.any fun a => a.1 == e

def addArmed (e : Nat) (a : Armed) (d : Dev) : Dev := armSync (modTck (fun t => { t with armed := t.armed ++ [(e, a)] }) d)

def dropArmed (p : Nat × Armed → Bool) (d : Dev) : Dev := armSync (modTck (fun t => { t with armed := t.armed.filter (!p ·) }) d)

/-- The block of a register key. -/
def keyBlock (key : Nat) : Option Blk := blkAt (key % bankStep)

/-- Blocks that an armed change reaches: of its pairs and of its shadow values. -/
def pairBlk (a : Armed) (k : Nat) (d : Dev) : Option Blk := (a.pairs[k]?).bind fun p => blkOf a.org p.1 d
def armedBlks (a : Armed) (d : Dev) : List Blk :=
  (a.pairs.filterMap (fun p => blkOf a.org p.1 d) ++ a.shadow.filterMap fun s => keyBlock s.1).eraseDups

/-! ### Building and arming (R211, R212) -/

/-- The action of TCK_ARM_DATA: a pair is appended. -/
def armDataAct (val : Nat) (d : Dev) : Dev :=
  if 256 ≤ d.tck.building.length then wrBit .tck TCK_ARM_STAT 11 true d
  else
    let d := modTck (fun t => { t with building := t.building ++ [(rdF .tck TCK_ARM_ADDR 0 28 d, val)] }) d
    wrF .tck TCK_ARM_STAT 20 9 d.tck.building.length d

/-- The action of TCK_ARM_CTL.DISCARD. -/
def armDiscardAct (d : Dev) : Dev :=
  wrF .tck TCK_ARM_STAT 20 9 0 (wrBit .tck TCK_ARM_STAT 11 false (modTck (fun t => { t with building := [] }) d))

/-- The action of TCK_ARM_CTL.CANCEL (R215): the entry is withdrawn up to Stitch n − 2. -/
def armCancelAct (e : Nat) (d : Dev) : Dev :=
  dropArmed (fun a => a.1 == e && decide (stitchNum d + 2 ≤ a.2.n)) d

/-! ### Delivery (R213) -/

/-- Pairs that a block holds in its pending buffer. -/
def pendingPairs (b : Blk) (d : Dev) : Nat :=
  (d.tck.armed.map fun a => (a.2.acked.filter fun k => pairBlk a.2 k d == some b && !a.2.reset.contains (blkBase b)).length).sum

/-- ARMED_PAIR_DELIVERY (R213): the block takes the pair into its buffer of 4 and acknowledges it. An acknowledgement after Stitch n − 1
comes too late and changes nothing (R214). -/
def deliverPair (e k : Nat) (d : Dev) : Dev :=
  match d.tck.armed.find? fun a => a.1 == e with
  | some (_, a) =>
    match pairBlk a k d with
    | some b =>
      if a.acked.contains k || inReset b d || decide (4 ≤ pendingPairs b d) || decide (a.n < stitchNum d + 2) then d
      else modTck (fun t => { t with armed := t.armed.map fun x => if x.1 = e then (e, { x.2 with acked := x.2.acked ++ [k] }) else x }) d
    | none => d
  | none => d

/-! ### Context entries (R216) -/

/-- The Marker or the Baste arms a context entry; none where TCK refuses it. -/
def armCtx (a : Armed) (d : Dev) : Option Dev :=
  if isSafe .tck d || decide (a.n ≤ stitchNum d + 1) then none
  else (freeEntry d).map fun e =>
    let down := (armedBlks a d).filter fun b => inReset b d
    addArmed e { a with reset := down.map blkBase } d

/-- TCK has refused a context entry for Stitch `n`: late, or its table full (R212, R216). -/
def armRefused (n : Nat) (d : Dev) : Dev :=
  if isSafe .tck d then d
  else wrBit .tck TCK_ARM_STAT 9 (freeEntry d).isNone (wrBit .tck TCK_ARM_STAT 8 (decide (n ≤ stitchNum d + 1)) d)

/-- Every context entry of a context that has not reached its Stitch is withdrawn (R258, R436). Of one whose Stitch has passed, the values
still to come are discarded; the blocks listed are brought level without them. -/
def withdrawCtx (ctx : Nat) (d : Dev) : Dev :=
  let stale (a : Armed) : Armed := { a with shadow := a.shadow.map (fun s => (s.1, 0, 0)), after := .none }
  modTck (fun t => { t with late := t.late.map fun a => if a.2.ctx == some ctx then (a.1, stale a.2) else a })
    (dropArmed (fun a => a.2.ctx == some ctx) d)

/-- Blocks that are reset lose what they hold for armed changes (R214). -/
def armedReset (p : Blk → Bool) (d : Dev) : Dev :=
  modTck (fun t => { t with armed := t.armed.map fun x =>
    let held := (x.2.acked.filterMap fun k => pairBlk x.2 k d) ++ x.2.shadow.filterMap fun s => keyBlock s.1
    (x.1, { x.2 with reset := x.2.reset ++ ((held.filter p).map blkBase).eraseDups }) }) d

/-- ARMED_PAIR_DELIVERY (R213). -/
def execArmedPairDelivery (entry k : Nat) (s : State) := s.onDev (deliverPair entry k)

end Sys2Proof.Machine
end

