-- ==== Sys2Proof/Machine/Baste.lean ====
section
/-! DEFINITION. The Baste (chapter "Checkpoint, replicas and restart"): records and mirrors, restores, the relay, parity rings, storage
snapshots. -/

namespace Sys2Proof.Machine

def snp0 : Blk := .snp 0
def snpR (ctx o : Nat) (d : Dev) : Nat := rdB snp0 o ctx d
def snpW (ctx o v : Nat) (d : Dev) : Dev := wrB snp0 o ctx v d
def snp64 (ctx o : Nat) (d : Dev) : Nat := rdB64 snp0 o ctx d
def snpW64 (ctx o v : Nat) (d : Dev) : Dev := wrB64 snp0 o ctx v d

def snapInit (_ : Nat) : SnapSt := {}
def getSnap (ctx : Nat) (d : Dev) : SnapSt := Sparse.get snapInit d.snap ctx
def modSnap (ctx : Nat) (f : SnapSt → SnapSt) (d : Dev) : Dev := { d with snap := Sparse.set snapInit d.snap ctx (f (getSnap ctx d)) }

def snpPhase (ctx n : Nat) (d : Dev) : Dev := snpW ctx SNP_CTL (putBits (snpR ctx SNP_CTL d) 16 3 n) d
def noStep : Nat := 2 ^ 64 - 1

/-- SNP_ERR (R420, R421), recorded while FAULT.VALID is 0 (R109). -/
def snpErr (cause ctx e addr : Nat) (d : Dev) : Dev :=
  if faultValid snp0 d then d else wr64 snp0 SNP_ERR_ADDR_LO addr (wr snp0 SNP_ERR (cause + ctx * 16 + e * 1024) d)


def countBytes (n : Nat) (d : Dev) : Dev := bump64 snp0 SNP_BYTES_LO n d

/-! ### The record (R403) -/

def recSize : Nat := 0x400000
/-- The own record, and the inboxes from the minus and plus side, of a step's parity (R402). -/
def ownRec (ctx s : Nat) (d : Dev) : Nat := snp64 ctx SNP_REC_LO d + s % 2 * recSize
def inbox (ctx side s : Nat) (d : Dev) : Nat := snp64 ctx SNP_REC_LO d + 0x800000 * (side + 1) + s % 2 * recSize

/-- A stream's state: HEAD, TAIL, COUNT and S0 to S15. -/
def streamBytes (c : CoreRef) (n : Nat) (d : Dev) : List Byte :=
  toBytes 8 (rd64 (.seq c) (sOff n S_HEAD_LO) d) ++ toBytes 8 (rd64 (.seq c) (sOff n S_TAIL_LO) d) ++
  toBytes 8 (rd64 (.seq c) (sOff n S_COUNT_LO) d) ++ (List.range 16).flatMap fun r => toBytes 8 (sreg c n r d)

/-- The generator's seed, mode and lane counters. -/
def rngBytes (c : CoreRef) (d : Dev) : List Byte :=
  let x := getCore c d
  toBytes 8 (x.seed.getD 0) ++ toBytes 8 (b2n (freeRunning c d) + 2 * b2n x.seed.isSome) ++ (List.range (nLanes c)).flatMap fun l => toBytes 8 (laneCtr x l)

/-- Sixty-four tracker slots: CFG, CUR and the ring. -/
def trkBytes (cfg cur : Nat → Nat) (hist : Nat → Nat → Nat) (d : Dev) : List Byte :=
  (List.range 64).flatMap fun n =>
    toBytes 4 (rdKey d (cfg n)) ++ toBytes 4 (rdKey d (cur n)) ++ (List.range 16).flatMap fun i => toBytes 4 (rdKey d (hist n i))

def coreBytes (c : CoreRef) (d : Dev) : List Byte :=
  (List.range (nStreams c)).flatMap (fun n => streamBytes c n d) ++
  (if isScalar c then [] else rngBytes c d) ++
  (if isMatrix c then trkBytes (sctCfg c) (sctCur c) (sctHist c) d else [])

/-- Persistent local-memory ranges of the bound pattern (R251): core, start and length. -/
def persistOf (cores : List CoreRef) (ranges : List (Nat × Nat × Nat)) : List (CoreRef × Nat × Nat) :=
  cores.flatMap fun c => (ranges.filter fun r => r.1 == coreKey c).map fun r => (c, r.2.1, r.2.2)

/-- Flags 0 to 16,382; flag 16,383 is stored as 0. -/
def flagBytes (ctx : Nat) (d : Dev) : List Byte := memBytes (flagKey ctx 0) (8 * 16383) d ++ toBytes 8 0

def pressBytes (ctx : Nat) (d : Dev) : List Byte :=
  let a := prs64 ctx PRS_VWORD_LO d
  let word := if gDev a = ownDev d then (match spotOf ctx a d with | .mem k => memNat k 8 d | _ => 0) else 0
  let p := (getPress ctx d).getD {}
  toBytes 8 (prsStep ctx d) ++ toBytes 8 (prsR ctx PRS_LS d) ++ toBytes 8 (prs64 ctx PRS_RNG_KEY_LO d) ++
  toBytes 8 (prs64 ctx PRS_VPREV_LO d) ++ toBytes 8 word ++ toBytes 24 0 ++
  p.st.flatMap fun s => toBytes 4 s.uses ++ toBytes 4 s.step

/-- The bytes of an entry's regions in a slot, unpadded, in the order of R394. -/
def shardBytes (ctx : Nat) (b : BktEnt) (s : ShdEnt) (k : Nat) (d : Dev) : List Byte :=
  (regionsAt b s k).flatMap fun r => (readRegion ctx r.1 r.2 d).2.1

/-- The digests of step S − 1; for S = 0 the Baste forms them with n = 2⁶⁴ − 1 (DEDUCED, log entry 87). -/
def digestBytes (ctx : Nat) (d : Dev) : List Byte :=
  let p := (getPress ctx d).getD {}
  let s := prsStep ctx d
  p.ents.zipIdx.flatMap fun x =>
    match p.digests.find? fun g => g.1 == x.2 with
    | some g => if s = 0 then entryDigest noStep x.2 x.1.1.n (shardBytes ctx x.1.1 x.1.2 0 d) else g.2
    | none => entryDigest ((s + noStep) % 2 ^ 64) x.2 x.1.1.n (shardBytes ctx x.1.1 x.1.2 (s % 2) d)

/-- The sections after the header. -/
def sections (ctx : Nat) (persist : List (Nat × Nat × Nat)) (d : Dev) : List (List Byte) :=
  let cs := ctxCores ctx d
  let feed := match spotOf ctx (snp64 ctx SNP_FEED_LO d) d with
    | .mem k => memBytes k (snpR ctx SNP_FEED_LEN d % 8192) d
    | _ => []
  let pad (x : List Byte) : List Byte := x ++ List.replicate ((8 - x.length % 8) % 8) 0
  [pressBytes ctx d, digestBytes ctx d, trkBytes trkCfg trkCur trkHist d,
   (cs.filter isMatrix).flatMap (fun c => coreBytes c d), (cs.filter isVector).flatMap (fun c => coreBytes c d),
   (cs.filter isScalar).flatMap (fun c => coreBytes c d), flagBytes ctx d, pad feed,
   (persistOf cs persist).flatMap fun r => pad (memBytes (keyLoc r.1 r.2.1) r.2.2 d)]

/-- The header (R403). The spec gives its content and size, not the places in it: 8 bytes for each value in the order named (DESIGN CHOICE, log
entry 23). -/
def recHeader (ctx : Nat) (ss : List (List Byte)) (d : Dev) : List Byte :=
  let vs := [1, ctx] ++ (List.range 5).map (coordOf (ownDev d)) ++ [prsStep ctx d, stitchNum d, ((getPress ctx d).getD {}).ents.length] ++ ss.map (·.length)
  let h := vs.flatMap (toBytes 8)
  h ++ List.replicate (256 - h.length) 0

def record (ctx : Nat) (persist : List (Nat × Nat × Nat)) (d : Dev) : List Byte :=
  let ss := sections ctx persist d
  recHeader ctx ss d ++ ss.flatten

/-- Bytes that a bound context's record takes, for the check of CAPTURE_EN. -/
def recordSize (ctx : Nat) (persist : List (Nat × Nat × Nat)) (d : Dev) : Nat := (record ctx persist d).length

/-- The persistent ranges of a context's bound pattern. -/
def persistRanges (ctx : Nat) (d : Dev) : List (Nat × Nat × Nat) := ((d.jobs.find? fun j => j.ctx == ctx).map (·.persist)).getD []

/-! ### Sending -/

/-- The die whose Baste makes a request: that of the bucket entry whose slot region a part of a restore goes to, else die 0. -/
def basteDie (ctx : Nat) (op : BasteOp) (dst : Nat) (d : Dev) : Nat :=
  match op with
  | .part _ _ => ((readTables ctx d).findIdx fun x =>
      [0, 1].any fun k => (regionsAt x.1 x.2 k).any fun r => decide (r.1 ≤ dst) && decide (dst < r.1 + r.2)) % 4
  | _ => 0

/-- A Baste's request; the safe state holds it (R422), and without a flow it cannot be sent (DEDUCED, log entry 89). -/
def basteSend (ctx : Nat) (op : BasteOp) (dst : Nat) (flow : Option Nat) (q : Packet) (d : Dev) : Dev :=
  if basteRuns d then countBytes (q.len + 1) (sendOp (.baste ctx (basteDie ctx op dst d) op dst) flow q d)
  else modSnap ctx (fun x => { x with held := x.held ++ [(op, dst, flow, q)] }) d

def isBaste (ctx : Nat) (f : BasteOp → Bool) (i : Issuer) : Bool :=
  match i with
  | .baste c _ op _ => c == ctx && f op
  | _ => false

/-- Requests of some kinds still to be answered. -/
def basteWaits (ctx : Nat) (f : BasteOp → Bool) (d : Dev) : Bool :=
  (d.net.reqs.any fun r => isBaste ctx f r.by_) || (d.net.flows.any fun x => x.2.held.any fun h => isBaste ctx f h.1) ||
    (getSnap ctx d).held.any fun h => f h.1

/-- A logical recovery flow (SNP_FLOWS). -/
def recFlow (ctx k : Nat) (d : Dev) : Option Nat := boundFlow ctx (bits (snpR ctx SNP_FLOWS d) 0 14 + k) d

/-- The device at a ring distance on the data axis. -/
def dataPeer (ctx k : Nat) (d : Dev) : Nat :=
  let ax := bits (snpR ctx SNP_AXES d) 0 3
  withCoord (ownDev d) ax ((coordOf (ownDev d) ax + k) % axisLen ax d)
def dataLen (ctx : Nat) (d : Dev) : Nat := axisLen (bits (snpR ctx SNP_AXES d) 0 3) d

/-- Pieces of a run of bytes that no 4,096-byte boundary of `a` cuts: offset and length. -/
def cutRun : Nat → Nat → Nat → Nat → List (Nat × Nat)
  | 0, _, _, _ => []
  | k + 1, a, off, n => if n = 0 then [] else
    let c := min n (4096 - (a + off) % 4096)
    (off, c) :: cutRun k a (off + c) (n - c)

def pieces (a n : Nat) : List (Nat × Nat) := cutRun (n / 4096 + 2) a 0 n

/-! ### Capture (R401, R402) and parity generations (R412, R413) -/

def parLen (ctx : Nat) (d : Dev) : Nat := snp64 ctx SNP_PAR_LEN_LO d
def parAxis (ctx : Nat) (d : Dev) : Nat := bits (snpR ctx SNP_AXES d) 8 3
def ringMember (ctx j : Nat) (d : Dev) : Nat := withCoord (ownDev d) (parAxis ctx d) (j % 8)
def ringOwn (ctx : Nat) (d : Dev) : Nat := coordOf (ownDev d) (parAxis ctx d)
/-- Generation buffer `b`: the copy, and after it the parity; then the done table: copy slot and parity slot of each member. -/
def genCopy (ctx b : Nat) (d : Dev) : Nat := let l := parLen ctx d; snp64 ctx SNP_PAR_LO d + b * (l + l / 7)
def genParity (ctx b : Nat) (d : Dev) : Nat := genCopy ctx b d + parLen ctx d
def doneSlot (ctx j : Nat) (parity : Bool) (d : Dev) : Nat := genCopy ctx 2 d + 16 * j + (if parity then 8 else 0)

/-- An address of this device moved to another (log entry 24). -/
def onDevice (dev a : Nat) : Nat := gAddr dev (gSpace a) (gOff a)

def readNat (ctx a n : Nat) (d : Dev) : Nat := ofBytes (readRegion ctx a n d).2.1

/-- The state image of a step (R408): the record padded to 4 MiB, then the slot regions, each padded to 4 KiB. -/
def padTo (n : Nat) (x : List Byte) : List Byte := x ++ List.replicate (ceilDiv x.length n * n - x.length) 0
/-- The entries a context's image holds: none where no Press serves it. -/
def imagePress (ctx : Nat) (d : Dev) : PressSt := (getPress ctx d).getD {}
def imageSize (p : PressSt) : Nat := recSize + (p.ents.flatMap fun x => (regionsAt x.1 x.2 0).map fun r => ceilDiv r.2 4096 * 4096).sum
def image (ctx s : Nat) (p : PressSt) (d : Dev) : List Byte :=
  (readRegion ctx (ownRec ctx s d) recSize d).2.1 ++ p.ents.flatMap fun x => (regionsAt x.1 x.2 (s % 2)).flatMap fun r => padTo 4096 (readRegion ctx r.1 r.2 d).2.1

/-- The first poisoned byte of some runs of this device: address and length. -/
def firstPoison (ctx : Nat) (rs : List (Nat × Nat)) (d : Dev) : Option Nat := rs.findSome? fun r => (readRegion ctx r.1 r.2 d).2.2
/-- The runs of a state image are read, with what error correction does to them (R232, R233). -/
def touchImage (ctx s : Nat) (p : PressSt) (d : Dev) : Dev :=
  ((ownRec ctx s d, recSize) :: p.ents.flatMap fun x => regionsAt x.1 x.2 (s % 2)).foldl (fun d r => (readRegion ctx r.1 r.2 d).1) d
def imagePoison (ctx s : Nat) (p : PressSt) (d : Dev) : Option Nat :=
  firstPoison ctx ((ownRec ctx s d, recSize) :: p.ents.flatMap fun x => regionsAt x.1 x.2 (s % 2)) d

/-- What a record's sections read of memory, as keys and lengths: flags, feed, persistent ranges. -/
def recordRuns (ctx : Nat) (d : Dev) : List (Nat × Nat) :=
  let feed := match spotOf ctx (snp64 ctx SNP_FEED_LO d) d with
    | .mem k => [(k, snpR ctx SNP_FEED_LEN d % 8192)]
    | _ => []
  (flagKey ctx 0, 8 * 16383) :: feed ++ (persistOf (ctxCores ctx d) (persistRanges ctx d)).map fun r => (keyLoc r.1 r.2.1, r.2.2)
def touchRecord (ctx : Nat) (d : Dev) : Dev := (recordRuns ctx d).foldl (fun d r => readEffects r.1 r.2 d) d
/-- The first poisoned byte that a record's sections read, as a key. -/
def recordPoison (ctx : Nat) (d : Dev) : Option Nat := (recordRuns ctx d).findSome? fun r => poisonKey r.1 r.2 d

/-- The buffer that holds the copy of a step. -/
def genBufOf (ctx s : Nat) (d : Dev) : Option Nat :=
  let x := getSnap ctx d
  if x.buf0 = some s then some 0 else if x.buf1 = some s then some 1 else none
def setBuf (ctx b s : Nat) (d : Dev) : Dev := modSnap ctx (fun x => if b = 0 then { x with buf0 := some s } else { x with buf1 := some s }) d

/-- A value put into a done-table slot on every member (R413 steps 2 and 4). -/
def putDone (ctx s : Nat) (parity : Bool) (d : Dev) : Dev :=
  let own := ringOwn ctx d
  (List.range 8).foldl (fun d j =>
    let a := doneSlot ctx own parity d
    if j = own then writeAt ctx a (toBytes 8 s) d
    else
      let dev := ringMember ctx j d
      basteSend ctx .slot 0 (reqFlow ctx dev d) { op := .put, addr := onDevice dev a, len := 7, data := toBytes 8 s } d) d

/-- The committed generation: the least of the parity slots, all ones standing for none (R413, R414). -/
def parGen (ctx : Nat) (d : Dev) : Nat :=
  if !bit (snpR ctx SNP_CTL d) 2 then noStep
  else
    let vs := (List.range 8).map fun j => signed 64 (readNat ctx (doneSlot ctx j true d) 8 d)
    let m := vs.foldl min (2 ^ 63)
    let g := wrap 64 m
    if (getSnap ctx d).consumed = some g then noStep else g

/-- A generation in progress is abandoned. -/
def abandonGen (ctx : Nat) (d : Dev) : Dev :=
  if (getSnap ctx d).gen.isSome then setEvent snp0 12 (modSnap ctx (fun x => { x with gen := none }) d) else d

/-- A parity generation starts in the buffer that does not hold the committed one, the first where none is committed: the image is copied and
the copy slot published (R413 steps 1 and 2). Poisoned data ends it with cause 9 (R421). -/
def startGen (ctx s : Nat) (d : Dev) : Dev :=
  let p := imagePress ctx d
  let d := abandonGen ctx d
  let b := (genBufOf ctx (parGen ctx d) d).elim 0 (1 - ·)
  let d := touchImage ctx s p d
  let img := image ctx s p d
  let l := parLen ctx d
  if let some a := imagePoison ctx s p d then setEvent snp0 12 (snpErr 9 ctx 0 a d)
  else if l < img.length then snpErr 6 ctx 0 (snp64 ctx SNP_PAR_LO d) d
  else
    let d := writeAt ctx (genCopy ctx b d) (img ++ List.replicate (l - img.length) 0) d
    let d := writeAt ctx (genParity ctx b d) (List.replicate (l / 7) 0) (setBuf ctx b s (countBytes l d))
    putDone ctx s false (snpPhase ctx 5 (modSnap ctx (fun x => { x with gen := some { step := s, buf := b } }) d))

/-- Bytes XORed into memory. -/
def xorAt (ctx a : Nat) (bs : List Byte) (d : Dev) : Dev :=
  let old := (readRegion ctx a bs.length d).2.1
  writeAt ctx a ((old.zip bs).map fun p => p.1 ^^^ p.2) d

/-- Chunk `i` of a member is held by member (j + 1 + i) mod 8: the chunk of `j` that `r` holds (R412). -/
def chunkOf (j r : Nat) : Nat := (r + 15 - j) % 8

/-- The chunk of a member is asked for, piece by piece. -/
def askChunk (ctx j : Nat) (op : BasteOp) (src dst n : Nat) (d : Dev) : Dev :=
  let dev := ringMember ctx j d
  (pieces src n).foldl (fun d p =>
    basteSend ctx op (dst + p.1) (reqFlow ctx dev d) { op := .get, addr := onDevice dev (src + p.1), len := p.2 - 1 } d) d

/-- PARITY_GATHER (R413 step 3, R414): member `j` has published its copy, and its chunk is asked for. -/
def parityGather (ctx j : Nat) (d : Dev) : Dev :=
  match (getSnap ctx d).gen with
  | some g =>
    let own := ringOwn ctx d
    let c := parLen ctx d / 7
    if !basteRuns d || 8 ≤ j || j = own || g.asked.contains j || g.lost == some j ||
        readNat ctx (doneSlot ctx j false d) 8 d != g.step then d
    else
      let d := modSnap ctx (fun x => { x with gen := x.gen.map fun g => { g with asked := g.asked ++ [j] } }) d
      askChunk ctx j (.chunk j) (genCopy ctx g.buf d + chunkOf j own * c) (genParity ctx g.buf d) c d
  | none => d

/-- A gathered piece has been XORed in; when every member's chunk is in, the parity slot is published (R413 step 4). -/
def gathered (ctx : Nat) (d : Dev) : Dev :=
  match (getSnap ctx d).gen with
  | some g =>
    let need := if g.lost.isSome then 6 else 7
    if g.asked.length = need && !basteWaits ctx (fun o => match o with | .chunk _ => true | _ => false) d then
      match g.lost with
      | some _ => modSnap ctx (fun x => { x with gen := none }) d
      | none => putDone ctx g.step true (modSnap ctx (fun x => { x with gen := none }) d)
    else d
  | none => d

/-- The device has arrived at a capture seam (R401, R402): true when its arrival is now held for the mirrors (DEDUCED, log entry 28). -/
def captureDue (ctx : Nat) (d : Dev) : Bool :=
  bit (snpR ctx SNP_CTL d) 0 && (getSnap ctx d).recorded.all fun r => decide (r < prsStep ctx d)

/-- The record is written and mirrored, the arrival held (R402 rules 1 to 3); a parity generation begins where one is due. Poisoned data ends
the capture with cause 9 (R421): nothing is written, and the arrival is held to the limit of R268. A record that has grown beyond its buffer is
refused as CAPTURE_EN is (R403): cause 1, and CAPTURE_EN reads 0 (DEDUCED, log entry 27). -/
def capture (ctx : Nat) (d : Dev) : Dev :=
  let s := prsStep ctx d
  let d := touchRecord ctx d
  if let some k := recordPoison ctx d then
    snpErr 9 ctx 0 (keyAddr k d) (snpPhase ctx 1 (modSeam ctx (fun m => { m with held := true })
      (modSnap ctx (fun x => { x with recorded := some s, pend := none, capturing := true, mirrorLost := true }) d)))
  else
  let r := record ctx (persistRanges ctx d) d
  if recSize < r.length then snpErr 1 ctx 0 0 (snpW ctx SNP_CTL (putBits (snpR ctx SNP_CTL d) 0 1 0) d)
  else
  let d := snpPhase ctx 1 (modSeam ctx (fun m => { m with held := true }) d)
  let d := countBytes r.length (writeAt ctx (ownRec ctx s d) r d)
  let d := modSnap ctx (fun x => { x with recorded := some s, pend := some s, capturing := true, mirrorLost := false }) d
  let mirror (dev side : Nat) (d : Dev) : Dev :=
    (pieces (inbox ctx side s d) r.length).foldl (fun d p =>
      let data := (r.drop p.1).take p.2
      basteSend ctx .mirror 0 (reqFlow ctx dev d) { op := .put, addr := onDevice dev (inbox ctx side s d + p.1), len := p.2 - 1, data := data } d) d
  let d := if bit (snpR ctx SNP_CTL d) 1 && decide (1 < dataLen ctx d) then
      mirror (dataPeer ctx (dataLen ctx d - 1) d) 1 (mirror (dataPeer ctx 1 d) 0 d)
    else d
  let every := bits (snpR ctx SNP_AXES d) 16 8
  if bit (snpR ctx SNP_CTL d) 2 && s % every = 0 then startGen ctx s d else d

/-- CAPTURE_FORWARD (R402 rule 4): every mirror PUT has been acknowledged. -/
def captureForward (ctx : Nat) (d : Dev) : Dev :=
  let x := getSnap ctx d
  if x.capturing && basteRuns d && captureDue ctx d then capture ctx d
  else if x.capturing && !x.mirrorLost && basteRuns d && !basteWaits ctx (fun o => decide (o = .mirror)) d then
    seamRelease ctx (modSnap ctx (fun x => { x with capturing := false }) d)
  else d

/-! ### Storage snapshots (R415) -/

/-- The image leaves for host memory, 4,096 bytes at a time. -/
def sendImage (addr : Nat) : Nat → List Byte → Dev → Dev
  | 0, _, d => d
  | k + 1, bs, d => if bs.isEmpty then d else
    sendImage (addr + 4096) k (bs.drop 4096) (toHost true (.hostWrite addr (bs.take 4096)) d)

/-- A snapshot requested begins once SNP_LAST_CAP reads its step; poisoned data ends it with cause 9 (R421). -/
def snapBegin (ctx : Nat) (d : Dev) : Dev :=
  let x := getSnap ctx d
  match x.snap with
  | some s =>
    let p := imagePress ctx d
    if x.snapSent || snp64 ctx SNP_LAST_CAP_LO d != s || !basteRuns d then d
    else
    let d := touchImage ctx s p d
    if let some a := imagePoison ctx s p d then
      snpErr 9 ctx 0 a (setEvent snp0 11 (modSnap ctx (fun x => { x with snap := none, snapSent := false }) d))
    else
      let img := image ctx s p d
      sendImage (snp64 ctx SNP_IMG_LO d) (img.length / 4096 + 1) img
        (countBytes img.length (snpPhase ctx 4 (modSnap ctx (fun x => { x with snapSent := true }) d)))
  | none => d

/-- A write of SNP_CTL.SNAP. -/
def snapAct (ctx : Nat) (d : Dev) : Dev :=
  let s := snp64 ctx SNP_SNAP_STEP_LO d
  let last := snp64 ctx SNP_LAST_CAP_LO d
  if last != noStep && decide (s < last) then snpErr 7 ctx 0 0 d
  else if snp64 ctx SNP_IMG_LEN_LO d < imageSize (imagePress ctx d) || snp64 ctx SNP_IMG_LO d % 4096 != 0 then
    snpErr 6 ctx 0 (snp64 ctx SNP_IMG_LO d) d
  else snapBegin ctx (modSnap ctx (fun x => { x with snap := some s, snapSent := false }) d)

/-- SNAPSHOT_COMPLETE (R415): the last write has left the host port. -/
def snapshotComplete (ctx : Nat) (d : Dev) : Dev :=
  let x := getSnap ctx d
  if x.snap.isSome && x.snapSent then setEvent snp0 10 (modSnap ctx (fun x => { x with snap := none, snapSent := false }) d) else d

/-- The fence of step `n` ends a snapshot of step n − 1 and a generation of it whose copy is not complete (R413, R415). -/
def fenceSnap (ctx n : Nat) (d : Dev) : Dev :=
  match (getSnap ctx d).snap with
  | some s => if s + 1 = n then snpErr 5 ctx 0 0 (setEvent snp0 11 (modSnap ctx (fun x => { x with snap := none, snapSent := false }) d)) else d
  | none => d

/-- The seam has completed: LAST_CAP takes the captured step (R402). -/
def captureLanded (ctx : Nat) (d : Dev) : Dev :=
  match (getSnap ctx d).pend with
  | some s => snapBegin ctx (snpW64 ctx SNP_LAST_CAP_LO s (modSnap ctx (fun x => { x with pend := none }) d))
  | none => d

/-! ### Restoring (R406, R407) -/

def restoreFail (ctx cause e addr : Nat) (d : Dev) : Dev :=
  setEvent snp0 9 (snpErr cause ctx e addr (snpPhase ctx 0 (modSnap ctx (fun x => { x with restore := none }) d)))

def modRestore (ctx : Nat) (f : RestoreSt → RestoreSt) (d : Dev) : Dev := modSnap ctx (fun x => { x with restore := x.restore.map f }) d

/-- A header value of a record. -/
def hdr (bs : List Byte) (i : Nat) : Nat := ofBytes ((bs.drop (8 * i)).take 8)

/-- The header is that of the step, the context and the cut coordinates, the data coordinate excepted (R407). -/
def headerOk (ctx s : Nat) (bs : List Byte) (d : Dev) : Bool :=
  hdr bs 0 == 1 && hdr bs 1 == ctx && hdr bs 7 == s &&
    (List.range 5).all fun n => n == bits (snpR ctx SNP_AXES d) 0 3 || hdr bs (2 + n) == coordOf (ownDev d) n

/-- Section `i` of a record. -/
def sectionOf (bs : List Byte) (i : Nat) : List Byte :=
  (bs.drop (256 + ((List.range i).map fun k => hdr bs (10 + k)).sum)).take (hdr bs (10 + i))

def nat8 (bs : List Byte) (i n : Nat) : Nat := ofBytes ((bs.drop i).take n)

/-- A stream's state restored (R407 step 4). -/
def putStream (c : CoreRef) (n : Nat) (bs : List Byte) (d : Dev) : Dev :=
  let d := setHead c n (nat8 bs 0 8) (setTail c n (nat8 bs 8 8) (wr64 (.seq c) (sOff n S_COUNT_LO) (nat8 bs 16 8) d))
  (List.range 16).foldl (fun d r => setSreg c n r (nat8 bs (24 + 8 * r) 8) d) d

def putTrk (cfg cur : Nat → Nat) (hist : Nat → Nat → Nat) (bs : List Byte) (d : Dev) : Dev :=
  (List.range 64).foldl (fun d n =>
    let b := bs.drop (72 * n)
    (List.range 16).foldl (fun d i => wrKey (hist n i) (nat8 b (8 + 4 * i) 4) d) (wrKey (cur n) (nat8 b 4 4) (wrKey (cfg n) (nat8 b 0 4) d))) d

/-- The generator: the seed first, then mode and counters. -/
def putRng (c : CoreRef) (bs : List Byte) (d : Dev) : Dev :=
  let s := nat8 bs 0 8
  let m := nat8 bs 8 8
  let cs := (List.range (nLanes c)).map fun l => nat8 bs (16 + 8 * l) 8
  let ctr := cs.zipIdx.filterMap fun p => if p.1 = 0 then none else some (p.2, p.1)
  let d := modCore c (fun x => { x with seed := if bit m 1 then some s else none, ctrAll := 0, ctr := ctr }) d
  let b : Blk := if isMatrix c then .vec c else .seq c
  wrBit b (if isMatrix c then VEC_RNG_CTL else VCR_RNG_CTL) 0 (bit m 0)
    (wr64 b (if isMatrix c then VEC_RNG_SEED_LO else VCR_RNG_SEED_LO) s d)

/-- The cores of one type restored in turn. -/
def putCores : List CoreRef → List Byte → Dev → Dev
  | [], _, d => d
  | c :: cs, bs, d =>
    let k := nStreams c
    let d := (List.range k).foldl (fun d n => putStream c n ((bs.drop (152 * n)).take 152) d) d
    let r := bs.drop (152 * k)
    let g := if isScalar c then 0 else 16 + 8 * nLanes c
    let d := if isScalar c then d else putRng c r d
    let d := if isMatrix c then putTrk (sctCfg c) (sctCur c) (sctHist c) (r.drop g) d else d
    putCores cs (r.drop (g + if isMatrix c then 4608 else 0)) d

/-- Persistent ranges restored in turn, each padded to 8 bytes. -/
def putPersist : List (CoreRef × Nat × Nat) → List Byte → Dev → Dev
  | [], _, d => d
  | r :: rs, bs, d => putPersist rs (bs.drop (ceilDiv r.2.2 8 * 8)) (memPut (keyLoc r.1 r.2.1) (bs.take r.2.2) d)

/-- The record's state is written (R407 step 4), accumulators are zeroed (step 5), and the Baste waits (step 6). -/
def applyRecord (ctx : Nat) (ents : List (BktEnt × ShdEnt)) (bs : List Byte) (d : Dev) : Dev :=
  let p := sectionOf bs 0
  let d := wrB64 prs0 PRS_STEP_LO ctx (nat8 p 0 8) d
  let d := prsW ctx PRS_LS (nat8 p 8 8) d
  let d := wrB64 prs0 PRS_RNG_KEY_LO ctx (nat8 p 16 8) d
  let d := wrB64 prs0 PRS_VPREV_LO ctx (nat8 p 24 8) d
  let a := prs64 ctx PRS_VWORD_LO d
  let d := if gDev a = ownDev d then writeAt ctx a (toBytes 8 (nat8 p 32 8)) d else d
  let cs := ctxCores ctx d
  let d := putCores (cs.filter isScalar) (sectionOf bs 5) (putCores (cs.filter isVector) (sectionOf bs 4) (putCores (cs.filter isMatrix) (sectionOf bs 3) d))
  let d := putTrk trkCfg trkCur trkHist (sectionOf bs 2) d
  let d := memPut (flagKey ctx 0) ((sectionOf bs 6).take (8 * 16383)) d
  let d := putPersist (persistOf cs (persistRanges ctx d)) (sectionOf bs 8) d
  let d := writeAt ctx (snp64 ctx SNP_FEED_LO d) ((sectionOf bs 7).take (snpR ctx SNP_FEED_LEN d % 8192)) d
  let d := ents.foldl (fun d x =>
    match redGroup ctx x.1.group d with
    | some g => match redMember g (ownDev d) with
      | some m => zeroAcc ctx m.2.1 x.1.accOff 0 (partOf x.1.n (len1 x.1 d) (ownRank x.1.en1 x.1.ax1 d)).2 d
      | none => d
    | none => d) d
  setEvent snp0 8 (snpPhase ctx 3 (modSnap ctx (fun x => { x with restore := none, restored := true, recorded := none }) d))

/-- The slot regions of a step as one sequence (R408, R409): offset in the sequence, address and size of each region. -/
def placeRegions : Nat → List (Nat × Nat) → List (Nat × Nat × Nat)
  | _, [] => []
  | o, r :: rs => (o, r.1, r.2) :: placeRegions (o + ceilDiv r.2 4096 * 4096) rs
def slotSeq (ents : List (BktEnt × ShdEnt)) (k : Nat) : List (Nat × Nat × Nat) := placeRegions 0 (ents.flatMap fun x => regionsAt x.1 x.2 k)
def seqLen (ents : List (BktEnt × ShdEnt)) : Nat := (ents.flatMap fun x => (regionsAt x.1 x.2 0).map fun r => ceilDiv r.2 4096 * 4096).sum

/-- The slot regions taken from the copy of a parity generation (R408, R414), and the first poisoned address. -/
def takeCopy (ctx a : Nat) (sq : List (Nat × Nat × Nat)) (d : Dev) : Dev × Option Nat :=
  sq.foldl (fun r x =>
    match r.2 with
    | some _ => r
    | none =>
      let y := readRegion ctx (a + recSize + x.1) x.2.2 r.1
      match y.2.2 with
      | some bad => (y.1, some bad)
      | none => (writeAt ctx x.2.1 y.2.1 (countBytes x.2.2 y.1), none)) (d, none)

/-- Every byte of the restore has landed: header and digests are checked, and the record is applied (R407). -/
def restoreLanded (ctx : Nat) (d : Dev) : Dev :=
  match (getSnap ctx d).restore with
  | none => d
  | some r =>
    let a := match r.source with
      | 2 => genCopy ctx ((genBufOf ctx r.step d).getD 0) d
      | 1 => inbox ctx r.recFrom r.step d
      | _ => ownRec ctx r.step d
    let x := readRegion ctx a recSize d
    let d := x.1
    match x.2.2 with
    | some bad => restoreFail ctx 9 0 bad d
    | none =>
      let bs := x.2.1
      if !headerOk ctx r.step bs d then restoreFail ctx 2 0 a d
      else
        let ents := readTables ctx d
        let dg := sectionOf bs 1
        let y := if r.source = 2 then takeCopy ctx a (slotSeq ents (r.step % 2)) d else (d, none)
        let d := y.1
        if let some bad := y.2 then restoreFail ctx 9 0 bad d
        else
        let checks := ents.zipIdx.map fun e =>
          let rs := (regionsAt e.1.1 e.1.2 (r.step % 2)).map fun g => readRegion ctx g.1 g.2 d
          let bad := rs.filterMap fun g => g.2.2
          (e.2, bad.head?, entryDigest ((r.step + noStep) % 2 ^ 64) e.2 e.1.1.n (rs.flatMap fun g => g.2.1) == (dg.drop (32 * e.2)).take 32)
        match checks.find? fun c => c.2.1.isSome with
        | some c => restoreFail ctx 9 c.1 (c.2.1.getD 0) d
        | none => match checks.find? fun c => !c.2.2 with
          | some c => restoreFail ctx 3 c.1 0 d
          | none => applyRecord ctx ents bs d

/-- Part `i` of `k` (R409), rounded down to 4 KiB. -/
def partRange (l k i : Nat) : Nat × Nat := (i * l / k / 4096 * 4096, (i + 1) * l / k / 4096 * 4096)

/-- The pieces of a part, from a source's regions to the own ones: source address, own address, length. -/
def partPieces (theirs own : List (Nat × Nat × Nat)) (lo hi : Nat) : List (Nat × Nat × Nat) :=
  (theirs.zip own).flatMap fun p =>
    let o := p.1.1
    let a := max lo o
    let b := min hi (o + p.1.2.2)
    if b ≤ a then [] else
      ((pieces (p.1.2.1 + (a - o)) (b - a)).flatMap fun q =>
        let s := p.1.2.1 + (a - o) + q.1
        let t := p.2.2.1 + (a - o) + q.1
        (pieces t q.2).map fun z => (s + z.1, t + z.1, z.2))

/-- The sources of R409 for a ring of `len`: distances on the data axis. -/
def sourceHops (len : Nat) : List Nat := if len ≤ 1 then [] else if len = 2 then [1, 1] else [len - 1, 1]

def srcFlow (ctx src k : Nat) (d : Dev) : Option Nat := recFlow ctx (4 * src + k % 4) d

/-- A source is asked for its shard table's address (R410). -/
def askSource (ctx i : Nat) (s : SrcSt) (d : Dev) : Dev :=
  basteSend ctx (.svc i) 0 (srcFlow ctx i 0 d) { op := .get, addr := gAddr s.dev 3 (regKey prs0 PRS_SHD_LO), len := 7 } d

/-- The record is asked for: from the minus-side inbox at g + 1, then from the plus-side inbox at g − 1 (R409). -/
def askRecord (ctx from_ s : Nat) (d : Dev) : Dev :=
  let len := dataLen ctx d
  let dev := dataPeer ctx (if from_ = 0 then 1 else len - 1) d
  let a := inbox ctx from_ s d
  (pieces a recSize).foldl (fun d p =>
    basteSend ctx .record (a + p.1) (srcFlow ctx (if from_ = 0 then 1 else 0) p.1 d) { op := .get, addr := onDevice dev (a + p.1), len := p.2 - 1 } d) d

/-- A part is asked for from a source whose table is known. -/
def askPart (ctx i p : Nat) (r : RestoreSt) (s : SrcSt) (d : Dev) : Dev :=
  let mine := readTables ctx d
  let tab := (s.table.foldl (fun m t => Sparse.set (fun _ => ([] : List Byte)) m t.1 t.2) ([] : List (Nat × List Byte))).flatMap (·.2)
  let theirs := mine.zipIdx.map fun e => (e.1.1, shdOf (some ((tab.drop (64 * e.2)).take 64)))
  let rg := partRange (seqLen mine) r.parts.length p
  ((partPieces (slotSeq theirs (r.step % 2)) (slotSeq mine (r.step % 2)) rg.1 rg.2).zipIdx).foldl (fun d q =>
    basteSend ctx (.part i p) q.1.2.1 (srcFlow ctx i q.2 d) { op := .get, addr := onDevice s.dev q.1.1, len := q.1.2.2 - 1 } d) d

/-- Host memory is read for the image (R416). -/
def readHost (ctx addr : Nat) : Nat → Nat → Dev → Dev
  | 0, _, d => d
  | k + 1, n, d => if n = 0 then d else
    let c := min n 4096
    readHost ctx (addr + c) k (n - c)
      (toHost true (.hostRead d.net.nextTag addr c)
        { d with net := { d.net with nextTag := d.net.nextTag + 1 }, hostReads := d.hostReads ++ [(d.net.nextTag, .baste ctx 0 .record addr)] })

def restoreOp : BasteOp → Bool
  | .svc _ | .shard _ _ | .part _ _ | .record | .rebuilt => true
  | _ => false

/-- The restore may be complete. -/
def restoreCheck (ctx : Nat) (d : Dev) : Dev :=
  match (getSnap ctx d).restore with
  | some r =>
    if basteWaits ctx restoreOp d || r.hostLeft || (r.source = 1 && !r.recOk) || (r.parts.contains 2 && !r.relayed) then d
    else restoreLanded ctx d
  | none => d

/-- The record of a REPLICA or HOST restore has come (R407 step 1): with a right header the slot regions follow (step 2); a piece refused at g + 1 has
the record asked for at g - 1 (R409). -/
def recordLanded (ctx : Nat) (d : Dev) : Dev :=
  match (getSnap ctx d).restore with
  | none => d
  | some r =>
    if r.recOk || basteWaits ctx (fun o => decide (o = .record)) d then d
    else if r.recBad then
      if r.recFrom = 0 then askRecord ctx 1 r.step (modRestore ctx (fun r => { r with recFrom := 1, recBad := false }) d)
      else restoreFail ctx 4 0 (inbox ctx 1 r.step d) d
    else
      let a := if r.source = 1 then inbox ctx r.recFrom r.step d else ownRec ctx r.step d
      let x := readRegion ctx a recSize d
      match x.2.2 with
      | some bad => restoreFail ctx 9 0 bad x.1
      | none =>
        if !headerOk ctx r.step x.2.1 x.1 then restoreFail ctx 2 0 a x.1
        else
          let d := modRestore ctx (fun r => { r with recOk := true }) x.1
          if r.source = 1 then r.srcs.zipIdx.foldl (fun d x => askSource ctx x.2 x.1 d) d
          else
            let n := seqLen (readTables ctx d)
            if n = 0 then restoreCheck ctx (modRestore ctx (fun r => { r with hostLeft := false }) d)
            else readHost ctx (snp64 ctx SNP_IMG_LO d + recSize) (n / 4096 + 1) n d

/-- Parts of a source that no longer serves pass to the next one still serving; with none left the restore stops (R411). -/
def dropSource (ctx i : Nat) (d : Dev) : Dev :=
  let d := modRestore ctx (fun r => { r with srcs := modNth (fun s => { s with alive := false }) i r.srcs }) d
  match (getSnap ctx d).restore with
  | none => d
  | some r =>
    match r.srcs.findIdx? (·.alive) with
    | none => restoreFail ctx 4 0 0 d
    | some j =>
      let moved := r.parts.zipIdx.filter fun p => p.1 == i
      let d := modRestore ctx (fun r => { r with parts := r.parts.map fun x => if x = i then j else x }) d
      match r.srcs[j]? with
      | some s => if s.ready then moved.foldl (fun d p => askPart ctx j p.2 r s d) d else d
      | none => d

/-- A write of SNP_CTL.RESTORE (R407). Under PARITY a member without a copy of the step is the one that has failed (R414): it takes its chunks
from the others; which of their buffers holds them is free (DESIGN CHOICE, log entry 26) (DEDUCED, log entry 88). -/
def restoreAct (ctx : Nat) (d : Dev) : Dev :=
  let s := snp64 ctx SNP_RESTORE_STEP_LO d
  let src := bits (snpR ctx SNP_CTL d) 4 2
  let d := snpPhase ctx 2 d
  let begin_ (r : RestoreSt) (d : Dev) : Dev := modSnap ctx (fun x => { x with restore := some r, restored := false }) d
  match src with
  | 0 =>
    if snp64 ctx SNP_LAST_CAP_LO d != s then restoreFail ctx 7 0 0 d
    else restoreLanded ctx (begin_ { step := s, source := 0 } d)
  | 1 =>
    let len := dataLen ctx d
    if len ≤ 1 then restoreFail ctx 4 0 0 d
    else
      let ax := bits (snpR ctx SNP_AXES d) 0 3
      let relay := bit (snpR ctx SNP_AXES d) 3 && ax != 0 && decide (1 < axisLen 0 d) && decide (4 ≤ len)
      let srcs := (sourceHops len).map fun k => ({ dev := dataPeer ctx k d } : SrcSt)
      let parts := [0, 1] ++ (if relay then [2] else [])
      askRecord ctx 0 s (begin_ { step := s, source := 1, srcs := srcs, parts := parts } d)
  | 2 =>
    let gen := parGen ctx d
    let own := ringOwn ctx d
    if (genBufOf ctx s d).isSome then
      if gen != s && (getSnap ctx d).consumed != some s then restoreFail ctx 7 0 0 d
      else restoreLanded ctx (begin_ { step := s, source := 2 } d)
    else
      let c := parLen ctx d / 7
      let b := freeNow d % 2
      let d := setBuf ctx b s (begin_ { step := s, source := 2 } (freeNext d))
      ((List.range 8).filter (· != own)).foldl (fun d r =>
        askChunk ctx r .rebuilt (genParity ctx b d) (genCopy ctx b d + chunkOf own r * c) c d) d
  | _ => readHost ctx (snp64 ctx SNP_IMG_LO d) (recSize / 4096 + 1) recSize (begin_ { step := s, source := 3, hostLeft := true } d)

/-- A piece of the image has come from host memory (R416): the record goes to the own buffer, the rest to the slot regions. -/
def hostImage (ctx addr : Nat) (bs : List Byte) (d : Dev) : Dev :=
  match (getSnap ctx d).restore with
  | none => d
  | some r =>
    let off := addr - snp64 ctx SNP_IMG_LO d
    let d := countBytes bs.length d
    let d := if off < recSize then writeAt ctx (ownRec ctx r.step d + off) bs d
      else
        let o := off - recSize
        (slotSeq (readTables ctx d) (r.step % 2)).foldl (fun d x =>
          let a := max o x.1
          let b := min (o + bs.length) (x.1 + x.2.2)
          if b ≤ a then d else writeAt ctx (x.2.1 + (a - x.1)) ((bs.drop (a - o)).take (b - a)) d) d
    if d.hostReads.any fun h => isBaste ctx (fun o => decide (o = .record)) h.2 then d
    else if !r.recOk then recordLanded ctx d
    else restoreCheck ctx (modRestore ctx (fun r => { r with hostLeft := false }) d)

/-- The image of host memory cannot be read. -/
def hostImageBad (ctx addr : Nat) (d : Dev) : Dev :=
  if (getSnap ctx d).restore.isSome then restoreFail ctx 9 0 addr d else d

/-! ### The relay (R410) and rebuilding (R414) -/

/-- A half of part 3 is read into the staging area, or what it holds is passed on (DEDUCED, log entry 29). -/
def relayMove (ctx : Nat) (d : Dev) : Dev :=
  match (getSnap ctx d).relay with
  | none => d
  | some r =>
    if basteWaits ctx (fun o => decide (o = .relayGet) || decide (o = .relayPut)) d then d
    else
      let mine := readTables ctx d
      let s := snp64 ctx SNP_RESTORE_STEP_LO d
      let sq := slotSeq mine (s % 2)
      let src := withCoord (dataPeer ctx 2 d) 0 (coordOf r.target 0)
      let e := min r.hi (r.pos + 0x800000)
      let stage := snp64 ctx SNP_REC_LO d + 0x1800000 + (r.pos - r.lo) / 0x800000 % 2 * 0x800000
      let ps := partPieces sq sq r.pos e
      let offs := ps.foldl (fun (acc : Nat × List (Nat × (Nat × Nat × Nat))) p => (acc.1 + p.2.2, acc.2 ++ [(acc.1, p)])) (0, [])
      if !r.putting then
        let d := modSnap ctx (fun x => { x with relay := some { r with putting := true } }) d
        offs.2.zipIdx.foldl (fun d p =>
          basteSend ctx .relayGet (stage + p.1.1) (recFlow ctx (12 + p.2 % 4) d) { op := .get, addr := onDevice src p.1.2.1, len := p.1.2.2.2 - 1 } d) d
      else
        let last := decide (r.hi ≤ e)
        let d := modSnap ctx (fun x => { x with relay := if last then none else some { r with pos := e, putting := false } }) d
        offs.2.zipIdx.foldl (fun d p =>
          let data := (readRegion ctx (stage + p.1.1) p.1.2.2.2 d).2.1
          basteSend ctx .relayPut 0 (recFlow ctx (12 + p.2 % 4) d)
            { op := if last then .putNotify else .put, addr := onDevice r.target p.1.2.2.1, len := data.length - 1, last := last,
              aux0 := if last then stitchFlag else 0, data := data } d) d

/-- A write of SNP_CTL.RELAY. -/
def relayAct (ctx : Nat) (d : Dev) : Dev :=
  let rg := partRange (seqLen (readTables ctx d)) 3 2
  relayMove ctx (snpPhase ctx 6 (modSnap ctx (fun x =>
    { x with relay := some { target := snpR ctx SNP_RELAY d % 32768, pos := rg.1, lo := rg.1, hi := rg.2 } }) d))

/-- A write of SNP_CTL.REBUILD (R414): the chunk of the member that has failed is formed in place of the parity, from the chunks of the six
others. The spec does not say how the member is named to the Baste: which of the other seven it is, is free. -/
def rebuildAct (ctx : Nat) (d : Dev) : Dev :=
  let k := parGen ctx d
  let own := ringOwn ctx d
  let f := (let v := freeNow d % 7; if v < own then v else v + 1)
  let b := (genBufOf ctx k d).getD 0
  let c := parLen ctx d / 7
  let js := (List.range 8).filter fun j => j != own && j != f
  if k = noStep then d
  else
    let d := snpPhase ctx 5 (modSnap ctx (fun x => { x with consumed := some k, gen := some { step := k, buf := b, asked := js, lost := some f } }) (freeNext d))
    js.foldl (fun d j => askChunk ctx j (.chunk j) (genCopy ctx b d + chunkOf j own * c) (genParity ctx b d) c d) d

/-! ### Writes to SNP_CTL and resuming -/

/-- CAPTURE_EN and PAR_EN are refused where the record, the ring or their areas do not fit (R403, R412, R420, R421) (DEDUCED, log entry 27). Setting PAR_EN puts all ones into the
done table, so that no generation reads as committed (log entry 25). -/
def snpCtlChecks (ctx old : Nat) (d : Dev) : Dev :=
  let v := snpR ctx SNP_CTL d
  let area := snp64 ctx SNP_REC_LO d
  let d := if bit v 0 && !bit old 0 then
      if recSize < recordSize ctx (persistRanges ctx d) d then snpErr 1 ctx 0 0 (snpW ctx SNP_CTL (putBits v 0 1 0) d)
      else if area % recSize != 0 || !memOk area 0x2800000 d then snpErr 6 ctx 0 area (snpW ctx SNP_CTL (putBits v 0 1 0) d)
      else d
    else d
  if bit v 2 && !bit old 2 then
    let l := parLen ctx d
    if axisLen (parAxis ctx d) d != 8 || l % 28672 != 0 || snp64 ctx SNP_PAR_LO d % 4096 != 0 ||
        !memOk (snp64 ctx SNP_PAR_LO d) (2 * (l + l / 7) + 128) d then
      snpErr 6 ctx 0 (snp64 ctx SNP_PAR_LO d) (snpW ctx SNP_CTL (putBits (snpR ctx SNP_CTL d) 2 1 0) d)
    else writeAt ctx (doneSlot ctx 0 false d) (List.replicate 128 0xFF) (modSnap ctx (fun x => { x with buf0 := none, buf1 := none, consumed := none }) d)
  else d

/-! ### Answers -/

/-- Data or an acknowledgement for a Baste's request. -/
def basteAnswered (ctx : Nat) (op : BasteOp) (dst : Nat) (p : Packet) (d : Dev) : Dev :=
  match op with
  | .mirror | .slot => d
  | .relayPut => relayMove ctx d
  | .relayGet => relayMove ctx (writeAt ctx dst p.data d)
  | .chunk _ => gathered ctx (xorAt ctx dst p.data d)
  | .record => recordLanded ctx (countBytes p.data.length (writeAt ctx dst p.data d))
  | .rebuilt | .part _ _ => restoreCheck ctx (countBytes p.data.length (writeAt ctx dst p.data d))
  | .svc i =>
    let a := ofBytes (p.data.take 8)
    let n := 64 * (readTables ctx d).length
    match (getSnap ctx d).restore.bind fun r => r.srcs[i]? with
    | some s => (pieces a n).foldl (fun d q =>
        basteSend ctx (.shard i q.1) 0 (srcFlow ctx i q.1 d) { op := .get, addr := onDevice s.dev (a + q.1), len := q.2 - 1 } d) d
    | none => d
  | .shard i off =>
    let d := modRestore ctx (fun r => { r with srcs := modNth (fun s => { s with table := s.table ++ [(off, p.data)] }) i r.srcs }) d
    if basteWaits ctx (fun o => match o with | .shard k _ => k == i | _ => false) d then d
    else
      let d := modRestore ctx (fun r => { r with srcs := modNth (fun s => { s with ready := true }) i r.srcs }) d
      match (getSnap ctx d).restore with
      | some r => match r.srcs[i]? with
        | some s => restoreCheck ctx ((r.parts.zipIdx.filter fun q => q.1 == i).foldl (fun d q => askPart ctx i q.2 r s d) d)
        | none => d
      | none => d

/-- A NACK to a Baste's request (R411). -/
def basteNacked (ctx : Nat) (op : BasteOp) (addr : Nat) (d : Dev) : Dev :=
  match op with
  | .mirror => modSnap ctx (fun x => { x with mirrorLost := true }) d
  | .svc i | .shard i _ | .part i _ => dropSource ctx i d
  | .record => recordLanded ctx (modRestore ctx (fun r => { r with recBad := true }) d)
  | .rebuilt => restoreFail ctx 4 0 addr d
  | .chunk _ => abandonGen ctx d
  | .slot => d
  | .relayGet | .relayPut => modSnap ctx (fun x => { x with relay := none }) d

/-- A notice of the relay's last half has been met at the device being restored: the part is there when the four flows have landed all its
bytes (R410). -/
def relayNotified (ctx : Nat) (d : Dev) : Dev :=
  match (getSnap ctx d).restore with
  | some r =>
    let sq := slotSeq (readTables ctx d) (r.step % 2)
    let rg := partRange (seqLen (readTables ctx d)) 3 2
    let goal := ((partPieces sq sq rg.1 rg.2).map fun p => p.2.2).sum
    let got := ((List.range 4).map fun k => match recFlow ctx (12 + k) d with
      | some f => rdB64 .fab FAB_FLOW_LANDED_LO f d
      | none => 0).sum
    if goal ≤ got then restoreCheck ctx (modRestore ctx (fun r => { r with relayed := true }) d) else d
  | none => d

/-! ### The commands -/

/-- CAPTURE_FORWARD (R402). -/
def execCaptureForward (ctx : Nat) (s : State) := s.onDev (captureForward ctx)
/-- PARITY_GATHER (R413). -/
def execParityGather (ctx j : Nat) (s : State) := s.onDev (parityGather ctx j)
/-- SNAPSHOT_COMPLETE (R415). -/
def execSnapshotComplete (ctx : Nat) (s : State) := s.onDev (snapshotComplete ctx)
/-- PRESS_FENCE (R376, R377, R415). -/
def execPressFence (ctx : Nat) (s : State) := s.onDev fun d =>
  let n := prsStep ctx d
  let d := if (getPress ctx d).any (fun p => allPressRun d && fenceReady ctx p d) then fenceSnap ctx n d else d
  pressFence ctx d

end Sys2Proof.Machine
end

