-- ==== Sys2Proof/Machine/Dump.lean ====
section
/-! DEFINITION. Releases and dumps of quarantined accumulator sets (R98, R110, R392). -/

namespace Sys2Proof.Machine

/-- A set is released, if it is quarantined. -/
def releaseQuar (c : CoreRef) (n : Nat) (d : Dev) : Dev :=
  if (getSet (getArr c d) n).quar then modArr c (modSet n releaseSet) d else d

/-- The 98,304 bytes of a set in RAW form, whatever its tag (R90, R110). -/
def rawBytes (s : AccSet) : List (Byte × Bool) :=
  (List.range 16384).flatMap fun x =>
    let cl := getCell s (x / 128) (x % 128)
    codeBytes 6 (cl.s.toNat + 2 ^ 32 * cl.c.toNat, s.bad.contains x)

/-- The releases that a write requested (R110). -/
def doReleases (c : CoreRef) (rs : List Nat) (d : Dev) : Dev := rs.foldl (fun d n => releaseQuar c n d) d

/-- The address takes a dump: 256-byte aligned, within R20's extents, in a memory of this device or of one to which the core has a control flow
(R19, R110, R289). -/
def dumpOk (c : CoreRef) (a : Nat) (d : Dev) : Bool :=
  decide (a % 256 = 0) && rangeOk a 98304 d && decide (gSpace a ≤ 2) &&
    (if gDev a = ownDev d then (match spotOf (coreCtx c d) a d with | .mem _ => true | _ => false) else (controlFlow c (gDev a) d).isSome)

/-- The dumps and releases that a write of ARR_QUAR asks for. -/
def askedDumps (v : Nat) : List Nat := (if bit v 10 then [0] else []) ++ (if bit v 11 then [1] else [])
def askedReleases (v : Nat) : List Nat := (if bit v 8 then [0] else []) ++ (if bit v 9 then [1] else [])

/-- Set 1 lands 0x1_8000 bytes after set 0 (R110). -/
def dumpAddr (base n : Nat) : Nat := (base + 0x18000 * n) % 2 ^ 64

/-- The action of a write to ARR_QUAR (R110): its dumps, set 0 before set 1, then its releases. The spec does not say what becomes of the
rest of a write of which a dump is refused, nor of a write during a dump (DESIGN CHOICE, log entry 143): no dump of a write is made if one is
refused, and its releases take place all the same; a write during a dump is acted on after it. -/
def quarWrite (c : CoreRef) (v : Nat) (d : Dev) : Dev :=
  let a := rd64 (.arr c) ARR_QDUMP_LO d
  let ok := (askedDumps v).all fun n => dumpOk c (dumpAddr a n) d
  let d := if ok then d else latch (.arr c) cAddressFault d
  let dumps := if ok then askedDumps v else []
  if (getArr c d).dump.busy then
    modArr c (fun x => { x with dump := { x.dump with later := x.dump.later ++ [(dumps, a, askedReleases v)] } }) d
  else if dumps.isEmpty then doReleases c (askedReleases v) d
  else modArr c (fun x => { x with dump := { todo := dumps, busy := true, addr := a, releases := askedReleases v } }) d

/-- What an array latches of a refused dump (R298) (DEDUCED, log entry 128). -/
def dumpNacked (c : CoreRef) (reason : Nat) (d : Dev) : Dev := latch (.arr c) (if reason = nkPerm then cPermDenied else cAddressFault) d

/-- One operation of a dump: at most 4,096 bytes at a global address, on this device or, as a PUT, on another (R287). -/
def dumpPiece (c : CoreRef) (a : Nat) (bs : List (Byte × Bool)) (d : Dev) : Dev :=
  if gDev a = ownDev d then
    match spotOf (coreCtx c d) a d with
    | .mem k =>
      if windowHit k bs.length d then dumpNacked c nkPerm d
      else match portAnswer (corePos c) (.mem k) bs.length d with
        | some reason => dumpNacked c reason d
        | none => memWrite k (bs.map (·.1)) (bs.map (·.2)) d
    | _ => dumpNacked c nkAddress d
  else sendOp (.dump c) (controlFlow c (gDev a) d)
    { op := .put, addr := a, len := bs.length - 1, data := bs.map (·.1), poison := flitPoison (bs.map (·.2)) bs.length } d

/-- The operations of a dump, cut at 4,096-byte boundaries. -/
def dumpPieces (c : CoreRef) : Nat → Nat → List (Byte × Bool) → Dev → Dev
  | 0, _, _, d => d
  | fuel + 1, a, bs, d =>
    if bs.isEmpty then d
    else
      let n := 4096 - a % 4096
      dumpPieces c fuel (a + n) (bs.drop n) (dumpPiece c a (bs.take n) d)

/-- The writes of ARR_QUAR that waited for a dump are acted on, up to the next that dumps. -/
def nextDump (c : CoreRef) : List (List Nat × Nat × List Nat) → Dev → Dev
  | [], d => modArr c (fun a => { a with dump := {} }) d
  | (dumps, addr, rels) :: later, d =>
    if dumps.isEmpty then nextDump c later (doReleases c rels d)
    else modArr c (fun a => { a with dump := { todo := dumps, busy := true, addr := addr, releases := rels, later := later } }) d

/-- DUMP_COMPLETE (R110): the first dump still to do has been written; after the last one of a write its releases follow. -/
def dumpComplete (c : CoreRef) (d : Dev) : Dev :=
  let x := (getArr c d).dump
  match x.todo with
  | n :: rest =>
    if arrIdle c d then d
    else
      let d := dumpPieces c 25 (dumpAddr x.addr n) (rawBytes (getSet (getArr c d) n)) d
      if rest.isEmpty then nextDump c x.later (doReleases c x.releases d)
      else modArr c (fun a => { a with dump := { x with todo := rest } }) d
  | [] => d

/-- DUMP_COMPLETE (R110). -/
def execDumpComplete (c : CoreRef) (s : State) := s.onDev (dumpComplete c)

end Sys2Proof.Machine
end

