-- ==== Sys2Proof/Machine/Selv.lean ====
section
/-! DEFINITION. The Selvedge (R470 to R483, R495, R497): signed objects, roles and the services of the DOE mailbox. -/

namespace Sys2Proof.Machine

def modSel (f : SelSt → SelSt) (d : Dev) : Dev := { d with sel := f d.sel }

/-- AUTH_FAIL with its record (R478, R473). -/
def authFail (kind reason ctr : Nat) (d : Dev) : Dev :=
  latchWith .sel cAuthFail (wr .sel SEL_AUTH (kind % 16 + reason * 256 + ctr % 256 * 65536)) d

/-- The value of an anti-rollback counter as SEL shows it (R479, R495). -/
def counterOf (i : Nat) (d : Dev) : Nat := rdB .sel SEL_CTR i d

/-! ### Signed objects (R477, R478) -/

/-- A list cut or filled with zeros to `n` bytes. -/
def fit (n : Nat) (bs : List Byte) : List Byte := (bs ++ List.replicate n 0).take n

/-- Bytes 0x000 to 0x07F of the signature block. -/
def sigPart1 (o : SignedObj) : List Byte :=
  toBytes 4 o.kind ++ toBytes 4 o.flags ++ toBytes 4 o.ctr ++ toBytes 4 o.svn ++ toBytes 8 o.length ++ toBytes 8 0 ++
    fit 64 o.digest ++ fit 32 o.vkeyid

/-- Bytes 0x000 to 0x0FF. -/
def sigPart2 (o : SignedObj) : List Byte := sigPart1 o ++ fit 114 o.vsig ++ fit 14 []

def keyHash (k : List Byte) : List Byte := Keccak.shake256 k 32

/-- The owner countersignature (check 5). -/
def ownerOk (h : List Byte) (o : SignedObj) : Bool :=
  bit o.flags 0 && decide (o.okeyid = h) && decide (keyHash o.ownerKey = h) && Config.ed448Verify o.ownerKey (sigPart2 o) o.osig

/-- Check 1: the form of the block. -/
def formOk (use : Nat) (o : SignedObj) : Bool :=
  o.kind == use && o.reservedZero && decide (o.flags < 2) && (decide (o.ctr < 64) || o.ctr == 255) && decide (o.svn ≤ 32) &&
    o.length == o.body.length

/-- The public key that VKEYID names among `keys`, if its usage mask allows the use. -/
def vendorKey (keys : List VKey) (use : Nat) (o : SignedObj) : Option (List Byte) :=
  (keys.find? fun k => decide (keyHash k.key = o.vkeyid) && bit k.usage use).map (·.key)

/-- The checks of R478 in their order against a list of keys; 0 where all pass, else the first that fails. -/
def objCheckWith (keys : List VKey) (use : Nat) (o : SignedObj) (d : Dev) : Nat :=
  if !formOk use o then 1
  else if o.digest ≠ Keccak.shake256 o.body 64 then 2
  else match vendorKey keys use o with
    | none => 3
    | some k =>
      if !Config.ed448Verify k (sigPart1 o) o.vsig then 4
      else if (match d.sel.owner with | some h => !ownerOk h o | none => false) then 5
      else if o.ctr ≠ 255 && decide (o.svn < counterOf o.ctr d) then 6
      else 0

def objCheck (use : Nat) (o : SignedObj) (d : Dev) : Nat := objCheckWith d.sel.vkeys use o d

/-! ### Services (R472 to R474) -/

/-- Approved mode (R472). -/
def approved (d : Dev) : Bool := d.sel.tested && !d.sel.error && !d.sel.debug && !d.sel.zeroised

/-- Bits [15:8] of SEL_STATUS (R495). -/
def selMode (d : Dev) : Nat :=
  b2n (approved d) + 2 * b2n d.sel.error + 4 * b2n d.sel.co + 8 * b2n d.sel.user + 16 * b2n d.sel.debug + 32 * b2n d.sel.zeroised +
    64 * b2n d.sel.owner.isSome

/-- The host port answers requests: the start has ended, and did not fail before the port had trained (R424, R425). -/
def hostServed (d : Dev) : Bool :=
  let st := rdF .rst RST_BOOT 0 4 d
  st == 7 || (st == 8 && decide (2 < rdF .rst RST_BOOT 16 4 d))

/-- The host port has trained, or still can (DEDUCED, log entry 117). -/
def hostUp (d : Dev) : Bool := !chipHeld d && !d.mod_.refLost && !(rdF .rst RST_BOOT 0 4 d == 8 && !hostServed d)

/-- A service ends with a response; in approved mode SEL_IND shows it. -/
def svcEnd (code tag status : Nat) (data : List Byte) (d : Dev) : Dev :=
  let d := if approved d then wr .sel SEL_IND (code + 256 * b2n (status == 0)) d else d
  { d with out := .doe tag status data :: d.out }

/-- What stops a service before its own work: the host port is not served (none), 5, 3 or 1. `secret` marks the services that use the
identity key or the DRBG (DEDUCED, log entry 112). -/
def svcGate (secret role : Bool) (d : Dev) : Option Nat :=
  if isSafe .sel d then some 5
  else if d.sel.error then some 3
  else if secret && !approved d then some 3
  else if !role then some 1
  else none

/-- A service: gated, then its own work, which answers status, results and the device. -/
def service (code tag : Nat) (secret role : Bool) (f : Dev → Dev × Nat × List Byte) (d : Dev) : Dev :=
  if !hostServed d then d
  else match svcGate secret role d with
    | some st => svcEnd code tag st [] d
    | none => let r := f d; svcEnd code tag r.2.1 r.2.2 r.1

/-- DRBG output of `n` bytes (R481): one generate request. -/
def generate (n : Nat) (d : Dev) : Dev × List Byte :=
  let u := d.sel.drbg
  let c := rd .sel SEL_RESEED d
  (wr .sel SEL_RESEED (if c + 1 = 2 ^ 20 then 0 else c + 1) (modSel (fun s => { s with drbg := u + 1 }) d),
   (List.range n).map fun i => Config.drbg u i)

/-- STATUS. -/
def svcStatus (tag : Nat) (d : Dev) : Dev :=
  if hostServed d then
    svcEnd 1 tag 0 (toBytes 4 (selMode d * 256) ++ (List.range 64).map (fun i => BitVec.ofNat 8 (counterOf i d)) ++ toBytes 4 (rd .sel SEL_OWNER d)) d
  else d

/-- The power-up self-tests and their rerun (R475): a failing one puts the Selvedge in its error state (DEDUCED, log entry 113). -/
def selfTests (fails : Nat) (d : Dev) : Dev :=
  if fails % 128 = 0 then modSel (fun s => { s with tested := true }) d
  else setEvent .sel 8 (wr .sel SEL_KAT (fails % 128) (modSel (fun s => { s with tested := true, error := true }) d))

/-- SELF_TEST. -/
def svcSelfTest (tag fails : Nat) (d : Dev) : Dev :=
  service 2 tag false true (fun d => (selfTests fails d, 0, toBytes 4 (fails % 128))) d

/-- GET_CERTS. -/
def svcGetCerts (tag : Nat) (certs : List Byte) (d : Dev) : Dev := service 3 tag false true (fun d => (d, 0, certs)) d

/-- AUTH_CHALLENGE. -/
def svcChallenge (tag : Nat) (d : Dev) : Dev :=
  service 4 tag true true (fun d =>
    let g := generate 32 d
    (modSel (fun s => { s with challenge := some g.2 }) g.1, 0, g.2)) d

/-- The message a role's key signs (R473). -/
def roleMessage (ch : List Byte) (role : Nat) (d : Dev) : List Byte :=
  Keccak.shake256 (ch ++ toBytes 4 role ++ toBytes 8 (rd64 .sel SEL_SERIAL_LO d)) 32

/-- The key is the role's: role 0 is the Crypto Officer, whose key's hash is the owner's; role 1 a User, by slot. -/
def roleKey (role slot : Nat) (key : List Byte) (d : Dev) : Bool :=
  if role = 0 then decide (d.sel.owner = some (keyHash key))
  else role == 1 && decide ((d.sel.userKeys[slot]?).getD none = some key)

/-- AUTH_RESPONSE (R473) (DEDUCED, log entry 110). -/
def svcAuth (tag role slot : Nat) (key sig : List Byte) (d : Dev) : Dev :=
  service 5 tag false true (fun d =>
    if 1 < role || 3 < slot then (d, 2, [])
    else if d.sel.lockout then (d, 4, [])
    else
      let ok := match d.sel.challenge with
        | some ch => roleKey role slot key d && Config.ed448Verify key (roleMessage ch role d) sig
        | none => false
      let d := modSel (fun s => { s with challenge := none }) d
      if ok then
        let d := modSel (fun s => { s with fails := 0, co := s.co || role == 0, user := s.user || role == 1 }) d
        (setEvent .sel 9 d, 0, toBytes 4 role)
      else
        let d := modSel (fun s => { s with fails := s.fails + 1, lockout := decide (8 ≤ s.fails + 1) }) d
        (authFail 0 8 0 d, 4, [])) d

/-- AUTH_LOCKOUT_END (R473). -/
def lockoutEnd (d : Dev) : Dev := if d.sel.lockout then modSel (fun s => { s with lockout := false, fails := 0 }) d else d

/-- LOGOUT. -/
def svcLogout (tag role : Nat) (d : Dev) : Dev :=
  service 6 tag false true (fun d =>
    if 1 < role then (d, 2, [])
    else if (if role = 0 then d.sel.co else d.sel.user) then
      (setEvent .sel 9 (modSel (fun s => if role = 0 then { s with co := false } else { s with user := false }) d), 0, toBytes 4 role)
    else (d, 1, [])) d

/-- Bytes 0x000 to 0x1FF of the attestation report (R480). -/
def reportBody (nonce : List Byte) (d : Dev) : List Byte :=
  let s := rd64 .log LOG_SEQ_LO d - 1
  let head := if s % 256 = 255 then d.log.hashes.headD [] else runHash d.log s
  toBytes 4 1 ++ toBytes 4 (rd .glb GLB_GRADE d) ++ toBytes 8 (rd64 .sel SEL_SERIAL_LO d) ++ toBytes 4 (rd .glb GLB_DEVNUM d) ++
  toBytes 4 (rd .rst RST_BOOT d) ++ toBytes 8 (stitchNum d) ++ fit 32 nonce ++ fit 64 d.sel.mgmt ++
  (d.sel.core.map (fit 32)).flatten ++ (List.range 64).map (fun i => BitVec.ofNat 8 (counterOf i d)) ++ fit 64 d.sel.config ++
  toBytes 4 (selMode d) ++ toBytes 8 (rd64 .log LOG_CHAIN_LO d) ++ toBytes 8 s ++ fit 32 head ++
  fit 32 (d.sel.owner.getD []) ++ fit 76 []

/-- A signature by the identity key. -/
def idSign (m : List Byte) (d : Dev) : List Byte := fit 114 (Config.ed448Sign (d.sel.idKey.getD []) m)

/-- ATTEST (R480). -/
def svcAttest (tag : Nat) (nonce : List Byte) (d : Dev) : Dev :=
  service 0x10 tag true d.sel.user (fun d =>
    if nonce.length ≠ 32 then (d, 2, [])
    else let b := reportBody nonce d; (d, 0, b ++ idSign b d ++ fit 14 [])) d

/-- RANDOM (R481): prediction resistance reseeds first. -/
def svcRandom (tag len : Nat) (predict : Bool) (d : Dev) : Dev :=
  service 0x11 tag true d.sel.user (fun d =>
    if len = 0 || 1024 < len then (d, 2, [])
    else let g := generate len (if predict then wr .sel SEL_RESEED 0 d else d); (g.1, 0, g.2)) d

/-- An object is checked, and AUTH_FAIL latched where it is refused. -/
def authObj (use : Nat) (o : SignedObj) (d : Dev) : Dev × Nat :=
  let r := objCheck use o d
  (if r = 0 then d else authFail o.kind r o.ctr d, r)

/-- VERIFY. -/
def svcVerify (tag : Nat) (o : SignedObj) (use : Nat) (d : Dev) : Dev :=
  service 0x12 tag false d.sel.user (fun d => let r := authObj use o d; (r.1, if r.2 = 0 then 0 else 4, toBytes 1 r.2)) d

/-- INSTALL_OWNER, on the device: the new slot is current (R476). -/
def svcInstall (tag slots : Nat) (hash : List Byte) (d : Dev) : Dev :=
  service 0x20 tag false (d.sel.owner.isNone || d.sel.co) (fun d =>
    if hash.length ≠ 32 then (d, 2, [])
    else if 4 ≤ slots then (d, 4, [])
    else (wr .sel SEL_OWNER (slots + 1) (modSel (fun s => { s with owner := some hash }) d), 0, [])) d

/-- INSTALL_OWNER burns a slot. -/
def installs (slots : Nat) (hash : List Byte) (d : Dev) : Bool :=
  hostServed d && (svcGate false (d.sel.owner.isNone || d.sel.co) d).isNone && hash.length == 32 && decide (slots < 4)

/-- SET_USER_KEY. -/
def svcUserKey (tag slot : Nat) (key : Option (List Byte)) (d : Dev) : Dev :=
  service 0x21 tag false d.sel.co (fun d =>
    if 3 < slot then (d, 2, [])
    else (modSel (fun s => { s with userKeys := modNth (fun _ => key) slot s.userKeys }) d, 0, [])) d

/-- The checks of a counter record (R479): counters 0 to 7 need a vendor signature, 8 to 63 only the owner's countersignature; the
value must rise, to 32 at most. -/
def counterCheck (o : SignedObj) (ctr value : Nat) (d : Dev) : Nat :=
  let r := if ctr < 8 then objCheck 5 o d
    else if !formOk 5 o then 1
    else if o.digest ≠ Keccak.shake256 o.body 64 then 2
    else match d.sel.owner with
      | some h => if !ownerOk h o then 5 else if o.ctr ≠ 255 && decide (o.svn < counterOf o.ctr d) then 6 else 0
      | none => 5
  if r ≠ 0 then r
  else if value ≤ counterOf ctr d || 32 < value || (ctr == 0 && d.sel.advanced) then 6 else 0

/-- ADVANCE_COUNTER, on the device. -/
def svcAdvance (tag : Nat) (o : SignedObj) (ctr value : Nat) (d : Dev) : Dev :=
  service 0x22 tag false d.sel.co (fun d =>
    if 63 < ctr then (d, 2, [])
    else
      let r := counterCheck o ctr value d
      if r = 0 then (modSel (fun s => { s with advanced := s.advanced || ctr == 0 }) (wrB .sel SEL_CTR ctr value d), 0, []) else (authFail o.kind r ctr d, 4, [])) d

/-- ADVANCE_COUNTER burns. -/
def advances (o : SignedObj) (ctr value : Nat) (d : Dev) : Bool :=
  hostServed d && (svcGate false d.sel.co d).isNone && decide (ctr ≤ 63) && counterCheck o ctr value d == 0

/-- A fuse row of a counter: thermometer coding, so a burn only raises it (R479). -/
def burnCounter (ctr value : Nat) (f : FuseSt) : FuseSt := { f with counters := modNth (max value) ctr f.counters }

/-- DEBUG_UNLOCK and DEBUG_LOCK (R483): at the next chip reset. -/
def svcDebug (code tag : Nat) (open_ : Bool) (d : Dev) : Dev :=
  service code tag false d.sel.co (fun d => (modSel (fun s => { s with debugNext := some open_ }) d, 0, [])) d

/-- The RAM of the boundary is cleared (R482): identity key, DRBG state, challenges and sessions. -/
def clearRam (d : Dev) : Dev :=
  modSel (fun s => { s with idKey := none, challenge := none, co := false, user := false, drbg := 0 }) d

def zeroiseOk (serial : Nat) (d : Dev) : Bool :=
  hostServed d && (svcGate false d.sel.co d).isNone && serial == rd64 .sel SEL_SERIAL_LO d

/-- ZEROISE, on the device (R482) (DEDUCED, log entry 111). -/
def svcZeroise (tag serial : Nat) (d : Dev) : Dev :=
  service 0x25 tag false d.sel.co (fun d =>
    if serial = rd64 .sel SEL_SERIAL_LO d then (modSel (fun s => { s with zeroised := true }) (clearRam d), 0, []) else (d, 4, [])) d

/-- Every bit of the device-secret row is burned to 1 (R482). -/
def burnSecret (f : FuseSt) : FuseSt := { f with secret := List.replicate 57 255 }

/-! ### The commands -/

/-- STATUS (R474). -/
def execStatus (tag : Nat) (s : State) := s.onDev (svcStatus tag)
/-- SELF_TEST (R474, R475). -/
def execSelfTest (tag fails : Nat) (s : State) := s.onDev (svcSelfTest tag fails)
/-- GET_CERTS (R474, R476). -/
def execGetCerts (tag : Nat) (s : State) := s.onDev (svcGetCerts tag s.fuses.certs)
/-- AUTH_CHALLENGE (R473). -/
def execAuthChallenge (tag : Nat) (s : State) := s.onDev (svcChallenge tag)
/-- AUTH_RESPONSE (R473). -/
def execAuthResponse (tag role slot : Nat) (key sig : List Byte) (s : State) := s.onDev (svcAuth tag role slot key sig)
/-- AUTH_LOCKOUT_END (R473). -/
def execAuthLockoutEnd (s : State) := s.onDev lockoutEnd
/-- LOGOUT (R473). -/
def execLogout (tag role : Nat) (s : State) := s.onDev (svcLogout tag role)
/-- ATTEST (R480). -/
def execAttest (tag : Nat) (nonce : List Byte) (s : State) := s.onDev (svcAttest tag nonce)
/-- RANDOM (R481). -/
def execRandom (tag len : Nat) (predict : Bool) (s : State) := s.onDev (svcRandom tag len predict)
/-- VERIFY (R478). -/
def execVerify (tag : Nat) (obj : SignedObj) (use : Nat) (s : State) := s.onDev (svcVerify tag obj use)
/-- INSTALL_OWNER (R474, R476). -/
def execInstallOwner (tag : Nat) (hash : List Byte) (s : State) : Host.Outcome State Fault Refusal :=
  let n := s.fuses.owners.length
  .next { s with
    dev := svcInstall tag n hash s.dev
    fuses := if installs n hash s.dev then { s.fuses with owners := s.fuses.owners ++ [hash] } else s.fuses }
/-- SET_USER_KEY (R474). -/
def execSetUserKey (tag slot : Nat) (key : Option (List Byte)) (s : State) := s.onDev (svcUserKey tag slot key)
/-- ADVANCE_COUNTER (R479). -/
def execAdvanceCounter (tag : Nat) (obj : SignedObj) (ctr value : Nat) (s : State) : Host.Outcome State Fault Refusal :=
  .next { s with
    dev := svcAdvance tag obj ctr value s.dev
    fuses := if advances obj ctr value s.dev then burnCounter ctr value s.fuses else s.fuses }
/-- DEBUG_UNLOCK (R483). -/
def execDebugUnlock (tag : Nat) (s : State) := s.onDev (svcDebug 0x23 tag true)
/-- DEBUG_LOCK (R483). -/
def execDebugLock (tag : Nat) (s : State) := s.onDev (svcDebug 0x24 tag false)
/-- ZEROISE (R482). -/
def execZeroise (tag serial : Nat) (s : State) : Host.Outcome State Fault Refusal :=
  .next { s with
    dev := svcZeroise tag serial s.dev
    fuses := if zeroiseOk serial s.dev then burnSecret s.fuses else s.fuses }

end Sys2Proof.Machine
end

