-- ==== Sys2Proof/Machine/Log.lean ====
section
/-! DEFINITION. The change log beside its chain (R489 to R497): copies to the host ring, hashes, seals in the flash. -/

namespace Sys2Proof.Machine

def logHwr (d : Dev) : Nat := rd64 .log LOG_HWR_LO d
def logSeq (d : Dev) : Nat := rd64 .log LOG_SEQ_LO d
def hostRing (d : Dev) : Nat := 2 ^ rdF .log LOG_HSIZE 0 5 d

/-- Entry `s`, if the ring holds it. -/
def entryAt (s : Nat) (d : Dev) : Option LogEntry := if s < logSeq d then d.log.ring[logSeq d - 1 - s]? else none

/-- H(k) of a completed block, if the link table holds it. -/
def hashAt (k : Nat) (d : Dev) : Option (List Byte) := if k < logSeq d / 256 then d.log.hashes[logSeq d / 256 - 1 - k]? else none

/-- A copy is due (R491). -/
def copyDue (d : Dev) : Bool :=
  rdBit .log LOG_HSIZE 16 d && !idle .log d && decide (logHwr d < logSeq d) && decide (logHwr d < d.log.hack + hostRing d)

/-- LOG_HOST_COPY (R491): the next entry, and its block's hash with the block's last. -/
def hostCopy (d : Dev) : Dev :=
  if copyDue d then
    let s := logHwr d
    match entryAt s d with
    | some e =>
      let d := toHost false (.hostWrite (rd64 .log LOG_HBASE_LO d + s % hostRing d * 32) (entryBytes e)) d
      let d := if s % 256 = 255 then
          match hashAt (s / 256) d with
          | some h => toHost false (.hostWrite (rd64 .log LOG_HLINK_LO d + s / 256 % (hostRing d / 256) * 32) h) d
          | none => d
        else d
      moveHwr (s + 1) d
    | none => d
  else d

/-- A write to LOG_HACK_HI applies the pair, kept at or below HWR (R496) (DEDUCED, log entry 116). -/
def hackAct (d : Dev) : Dev :=
  let v := min (rd64 .log LOG_HACK_LO d) (logHwr d)
  wr64 .log LOG_HACK_LO v { d with log := { d.log with hack := v } }

/-- R(s) of the newest entry. -/
def headHash (d : Dev) : List Byte :=
  let s := logSeq d - 1
  if s % 256 = 255 then d.log.hashes.headD [] else runHash d.log s

/-- LOG_CTL.HASH (R496). -/
def hashAct (d : Dev) : Dev :=
  let h := headHash d
  let d := wr64 .log LOG_HSEQ_LO (logSeq d - 1) d
  (List.range 8).foldl (fun d i => wr .log (LOG_HASH0 + 4 * i) (ofBytes ((h.drop (4 * i)).take 4)) d) d

/-! ### Seals (R493, R494) -/

def newestSeal (d : Dev) : Nat := rdF .log LOG_SEAL 8 6 d

/-- LOG_SEAL shows how many complete records the flash holds and the newest slot. -/
def sealCount (d : Dev) : Dev :=
  wrF .log LOG_SEAL 0 6 (d.flash.seals.filter (·.done)).length d

def sealFail (reason : Nat) (d : Dev) : Dev := latchWith .log cLogSealFail (wrF .log LOG_SEAL 16 3 reason) d

/-- The first sequence of the tail: the block of the first undrained entry, or the block boundary at or above head − 2,047. -/
def sealFirst (d : Dev) : Nat :=
  let head := logSeq d - 1
  max (min (logHwr d) head / 256 * 256) (ceilDiv (head - 2047) 256 * 256)

/-- Bytes of a seal record up to its signature. -/
def sealBytes (x : SealRec) : List Byte :=
  toBytes 8 x.chain ++ toBytes 8 x.first ++ toBytes 4 x.entries.length ++ toBytes 4 x.reason ++ toBytes 8 x.stitch ++ fit 32 x.h ++
    fit 65536 x.entries.flatten ++ fit 32 x.r

/-- The record of a seal begun now (R493). -/
def sealRecord (reason : Nat) (d : Dev) : SealRec :=
  let a := sealFirst d
  let h := if a = 0 then d.log.h0 else (hashAt (a / 256 - 1) d).getD []
  let x : SealRec :=
    { slot := newestSeal d % 63 + 1, chain := rd64 .log LOG_CHAIN_LO d, first := a, reason := reason, stitch := stitchNum d, h := h,
      entries := (lastEntries d.log (logSeq d - a)).map entryBytes, r := headHash d, sig := [] }
  if approved d then { x with sig := idSign (sealBytes x) d } else x

/-- Less than 60 s of Stitches since the last seal of this start (R450, R493). -/
def sealedLately (d : Dev) : Bool :=
  match d.log.lastSeal with
  | some t => decide ((stitchNum d - t) * rdF .tck TCK_LEN 0 15 d < 6000000000)
  | none => false

/-- A seal begins: its record goes to the next slot in rotation, without DONE (DEDUCED, log entry 114). -/
def sealBegin (reason : Nat) (d : Dev) : Dev :=
  if sealedLately d || d.sealing.isSome || logSeq d = 0 then d
  else
    let x := sealRecord reason d
    let d := { d with sealing := some x, log := { d.log with lastSeal := some (stitchNum d) },
                      flash := { d.flash with seals := x :: d.flash.seals.filter fun y => y.slot != x.slot } }
    let d := sealCount (wrF .log LOG_SEAL 8 6 x.slot d)
    if approved d then d else sealFail 4 d

/-- SEAL_COMPLETE (R493, R494): DONE is written, or the flash write has failed. -/
def sealComplete (ok : Bool) (d : Dev) : Dev :=
  match d.sealing with
  | some x =>
    let d := { d with sealing := none }
    if ok then
      let mark (y : SealRec) : SealRec := if y.slot = x.slot then { y with done := true } else y
      let d := { d with flash := { d.flash with seals := d.flash.seals.map mark } }
      setEvent .log 10 (sealCount d)
    else sealFail 3 d
  | none => d

/-- A word of a slot of the tail region (R493, R496): slot 0 is the header slot with the chain number. What the spec does not place
there is free (DESIGN CHOICE, log entry 115). -/
def sealWord (slot w : Nat) (d : Dev) : Nat :=
  if slot = 0 then (if w < 2 then d.flash.chain / 2 ^ (32 * w) % 2 ^ 32 else freeNow d)
  else match d.flash.seals.find? fun x => x.slot == slot with
    | some x =>
      let b := sealBytes x ++ fit 114 x.sig ++ fit 14 [] ++ toBytes 4 (b2n x.done)
      if 4 * w < b.length then ofBytes ((b.drop (4 * w)).take 4) else freeNow d
    | none => freeNow d

/-- The value LOG_FREAD reads as (R496). -/
def freadWord (d : Dev) : Nat := sealWord (rdF .log LOG_FREAD_SEL 0 6 d) (rdF .log LOG_FREAD_SEL 8 15 d) d

/-- A read of LOG_FREAD moves WORD on. -/
def freadStep (d : Dev) : Dev := freeNext (wrF .log LOG_FREAD_SEL 8 15 (rdF .log LOG_FREAD_SEL 8 15 d + 1) d)

/-- LOG_HOST_COPY (R491). -/
def execLogHostCopy (s : State) := s.onDev hostCopy
/-- SEAL_COMPLETE (R493). -/
def execSealComplete (ok : Bool) (s : State) := s.onDev (sealComplete ok)

end Sys2Proof.Machine
end

