-- ==== Sys2Proof/Machine/Scrub.lean ====
section
/-! DEFINITION. What the memory blocks do of themselves (R222, R225, R231, R232, R246): scrubbing, write-back, correction windows,
injected errors and failed channels. -/

namespace Sys2Proof.Machine

/-- The granules of `n` bytes at `k` are checked by scrub. -/
def scrubAt (k n : Nat) (d : Dev) : Dev := (gransOf k n).foldl (fun d g => eccCheck 2 g d) d

def scrubOn (b : Blk) (d : Dev) : Bool := rdBit b ECC_SCRUB 0 d

/-- LMM_SCRUB (R222): one 64-byte line of a local memory. -/
def lmmScrub (c : CoreRef) (line : Nat) (flaws : List Flaw) (d : Dev) : Dev :=
  let d := addFlaws flaws d
  if scrubOn (.lmm c) d && decide (64 * line < lmSize c) then scrubAt (keyLoc c (64 * line)) 64 d else d

/-- The key of 32-byte word `w` of a near-store controller: its share of the near store (R223), then of flag space (R226). -/
def nscWordKey (dd i w : Nat) : Nat :=
  if w < 50331648 then
    let a := 32 * w
    keyNear (dd * 0x180000000 + (a / 256 * 4 + i) * 256 + a % 256)
  else
    let a := 32 * (w - 50331648)
    keyFlag ((dd + 4 * (i + 4 * (a / 0x20000))) * 0x20000 + a % 0x20000)

/-- NSC_SCRUB (R225): one word of a near-store controller. -/
def nscScrub (dd i w : Nat) (flaws : List Flaw) (d : Dev) : Dev :=
  let d := addFlaws flaws d
  if scrubOn (.nsc dd i) d && !isSafe (.nsc dd i) d && decide (w < 50331648 + 16384) then scrubAt (nscWordKey dd i w) 32 d else d

/-- Data lines of a channel (R229). -/
def chanLines : Nat := 4194304 * 31

/-- The key of data line `n` of a channel in service of rank `r` (R230). -/
def chanLineKey (r n : Nat) (d : Dev) : Nat :=
  keyFar (((n / 31 * farChans d + r) * 31 + n % 31) * 128)

/-- FMC_SCRUB (R232): one data line of the controller's channels. -/
def fmcScrub (dd i line : Nat) (flaws : List Flaw) (d : Dev) : Dev :=
  let d := addFlaws flaws d
  let g := 24 * dd + 4 * i + line / chanLines % 4
  match d.farMap.findIdx? (· == g) with
  | some r =>
    if scrubOn (.fmc dd i) d && !isSafe (.fmc dd i) d && chanState g d == 2 && decide (line < 4 * chanLines) then
      scrubAt (chanLineKey r (line % chanLines) d) 128 d
    else d
  | none => d

/-- ECC_WRITEBACK (R225, R232): the oldest corrected granule of the block that waits is written back; a write to it since then
has dropped the write-back. -/
def eccWriteback (b : Blk) (d : Dev) : Dev :=
  match d.wback.find? fun g => decide (keyBlk g d = b) with
  | some g => setFlaw g 0 { d with wback := Sparse.unmark d.wback g }
  | none => d

/-- ECC_WINDOW_END (R232). -/
def eccWindowEnd (b : Blk) (d : Dev) : Dev :=
  wrF b ECC_WIN 0 16 0 { d with eccOnce := Sparse.unmark d.eccOnce (blkBase b) }

/-- The action of writing 1 to ECC_INJ.ARM (R246). -/
def eccArm (b : Blk) (d : Dev) : Dev := wrBit b ECC_INJ 3 true d

/-- A channel enters STATE 3 (R231): it is recorded for map-out and reports itself once. No granule is at fault: the position
and the address recorded are free (DEDUCED, log entry 130). RANK reads what it did until the next start ranks the channels
(DESIGN CHOICE, log entry 153). -/
def failChannel (g : Nat) (d : Dev) : Dev :=
  let b := chanBlk g
  if chanState g d = 2 then
    let d := wrF b (chanReg g) 0 3 3 { d with flash := { d.flash with mapout := Sparse.mark d.flash.mapout g } }
    let d := latchWith b cEccUncorrected (fun d =>
      wr b ECC_SYND (freeNow d % 256 + 3 * 256 + g % 4 * 4096) (wr64 b ECC_ADDR_LO (freeAt 1 d + freeAt 2 d * 2 ^ 32) (freeSkip 3 d))) d
    setEvent b 8 d
  else d

/-- CHANNEL_FAIL (R231). -/
def channelFail (dd i j : Nat) (d : Dev) : Dev := failChannel (24 * dd + 4 * i + j) d

/-- The action of MAPOUT_NEXT (R231, R248): a channel so marked is recorded and fails. -/
def mapoutAct (g : Nat) (d : Dev) : Dev :=
  if rdBit (chanBlk g) (chanReg g) 16 d then failChannel g d else d

/-- LMM_SCRUB (R222). -/
def execLmmScrub (c : CoreRef) (line : Nat) (flaws : List Flaw) (s : State) := s.onDev (lmmScrub c line flaws)
/-- NSC_SCRUB (R225). -/
def execNscScrub (d i word : Nat) (flaws : List Flaw) (s : State) := s.onDev (nscScrub d i word flaws)
/-- FMC_SCRUB (R232). -/
def execFmcScrub (d i line : Nat) (flaws : List Flaw) (s : State) := s.onDev (fmcScrub d i line flaws)
/-- ECC_WRITEBACK (R232). -/
def execEccWriteback (b : Blk) (s : State) := s.onDev (eccWriteback b)
/-- ECC_WINDOW_END (R232). -/
def execEccWindowEnd (b : Blk) (s : State) := s.onDev (eccWindowEnd b)
/-- CHANNEL_FAIL (R231). -/
def execChannelFail (d i j : Nat) (s : State) := s.onDev (channelFail d i j)

end Sys2Proof.Machine
end

