-- ==== Sys2Proof/Machine/Firmware.lean ====
section
/-! DEFINITION. Self-test failures (R429, R430, R432) and core firmware (R442 to R444). -/

namespace Sys2Proof.Machine

/-! ### Failures (R429, R430) -/

/-- The RST block that records for a block: that of its die, else the chip's. -/
def rstOf (b : Blk) : Blk := match blkDie b with | some k => .rstd k | none => .rst

/-- A self-test failure: latched in the block and in RST, counted, the first recorded (R429, R445). -/
def bistFail (b : Blk) (phase index : Nat) (d : Dev) : Dev :=
  let r := rstOf b
  let d := if b = r then d else latch b cBistFail d
  let d := latchWith r cBistFail (fun d => wr r RST_BIST_INFO (phase + index % 256 * 256) (wr r RST_BIST_ID (blkId b) d)) d
  setEvent r 10 (bumpSat r RST_BIST_CNT 0 16 d)

def repairExhausted (b : Blk) (phase index : Nat) (d : Dev) : Dev :=
  let r := rstOf b
  let d := latch b cRepairExhausted d
  let d := latchWith r cRepairExhausted (fun d => wr r RST_BIST_INFO (phase + index % 256 * 256) (wr r RST_BIST_ID (blkId b) d)) d
  setEvent r 11 (bumpSat r RST_BIST_CNT 16 16 d)

/-- The repair and map-out region holds this many records (R31, R432). -/
def repairRing : Nat := 262144

/-- A record joins the repair and map-out region (R432); a full region takes no more (DESIGN CHOICE, log entry 139). -/
def addRecord (r : RepRec) (d : Dev) : Dev :=
  { d with flash := { d.flash with repairs := (d.flash.repairs ++ [r]).take repairRing } }
def addRepair (kind block index data : Nat) (d : Dev) : Dev := addRecord { kind := kind, block := block, index := index, data := data } d

/-- CLU_SLOT as it shows a failed core or slot (R522). -/
def markFailed (c : CoreRef) (d : Dev) : Dev :=
  let b : Blk := .clu c.die c.cl
  if isMatrix c then wrF b CLU_SLOT (3 * c.slot) 3 3 d
  else wrBit b CLU_SLOT (if c.slot = 9 then 27 else if c.slot = 10 then 28 else 29) true d

/-- A core is failed, and recorded so before it takes effect (R430, R432). -/
def failCore (c : CoreRef) (d : Dev) : Dev :=
  markFailed c (addRepair (if isMatrix c then 9 else 10) (blkInstance (.cor c)) c.slot 0 d)

/-- A failed cluster takes no work (R429). -/
def failCluster (dd cc : Nat) (d : Dev) : Dev := wrBit (.clu dd cc) CLU_SLOT 31 true d

/-- The cluster's spare slot takes the place of a failed one (R10): one spare for each failed slot. -/
def substitute (dd cc : Nat) (d : Dev) : Dev :=
  let st (s : Nat) : Nat := slotState ⟨dd, cc, s⟩ d
  let failed := (List.range 9).filter fun s => st s == 3
  let subst := (List.range 9).filter fun s => st s == 2
  match (List.range 9).find? fun s => st s == 1 with
  | some s => if subst.length < failed.length then wrF (.clu dd cc) CLU_SLOT (3 * s) 3 2 d else d
  | none => d

/-! ### The reserve and the stores (R442) -/

/-- The firmware reserve in the near store of die 0; the places in it are the model's choice: for each type, 1 MiB, the manifest first and
the image 64 KiB on (DESIGN CHOICE, log entry 97). -/
def fwReserve : Nat := 0x17C000000
def manifestAt (ty : Nat) : Nat := fwReserve + ty * 0x100000
def imageAt (ty : Nat) : Nat := manifestAt ty + 0x10000

def manifestNat (ty off n : Nat) (d : Dev) : Nat := memNat (keyNear (manifestAt ty + off)) n d
def manifestBytes (ty off n : Nat) (d : Dev) : List Byte := memBytes (keyNear (manifestAt ty + off)) n d
def fwLen (ty : Nat) (d : Dev) : Nat := min 0x80000 (manifestNat ty 8 4 d)
def fwChunks (ty : Nat) (d : Dev) : Nat := ceilDiv (fwLen ty d) 4096
def chunkLen (ty k : Nat) (d : Dev) : Nat := min 4096 (fwLen ty d - 4096 * k)

def fwInit (_ : Nat) : Byte := 0
def fwKey (c : CoreRef) (off : Nat) : Nat := 2 ^ 19 * coreKey c + off
def fwBytes (c : CoreRef) (off n : Nat) (d : Dev) : List Byte := (List.range n).map fun i => Sparse.get fwInit d.fwStore (fwKey c (off + i))
def fwPut (c : CoreRef) : Nat → List Byte → Dev → Dev
  | _, [], d => d
  | off, b :: bs, d => fwPut c (off + 1) bs { d with fwStore := Sparse.set fwInit d.fwStore (fwKey c off) b }

/-- A chunk's bytes match its manifest entry. -/
def chunkOk (ty k : Nat) (bs : List Byte) (d : Dev) : Bool :=
  decide (Keccak.shake256 (toBytes 4 k ++ bs) 32 = manifestBytes ty (64 + 32 * k) 32 d)

/-- IMAGE over a core's store. -/
def imageOk (c : CoreRef) (d : Dev) : Bool :=
  let ty := coreTy c
  decide (Keccak.shake256 (toBytes 4 ty ++ toBytes 4 (manifestNat ty 4 4 d) ++ fwBytes c 0 (fwLen ty d) d) 32 = manifestBytes ty 16 32 d)

/-! ### Checking and pulling (R443, R444) -/

/-- A GET of a chunk from the reserve; RST_FW counts it. -/
def pullChunk (c : CoreRef) (k tries : Nat) (d : Dev) : Dev :=
  let a := gAddr (ownDev d) 0 (imageAt (coreTy c) + 4096 * k)
  sendLocal (.firmware c k (tries + 1)) { op := .get, addr := a, len := chunkLen (coreTy c) k d - 1 } (bumpSat .rst RST_FW 0 16 d)

/-- The firmware of a core cannot be verified. -/
def fwFail (c : CoreRef) (k : Nat) (d : Dev) : Dev :=
  failCore c (bistFail (.cor c) 4 k (modCore c (fun x => { x with fwWait := false }) d))

/-- The block's FENCE stays 1 while it stands in the miss table (R214). -/
def missListed (b : Blk) (d : Dev) : Bool :=
  (List.range 32).any fun i => bit (rdB .tck TCK_MISS_INFO i d) 8 && rdB .tck TCK_MISS i d == blkId b

/-- A block's WPERM is reloaded as it was locked (R59). -/
def wpermBack (b : Blk) (d : Dev) : Dev :=
  match d.wperm.find? fun p => p.1 == blkBase b with
  | some p => wr b R_WPERM p.2 d
  | none => d

/-- A block leaves reset: its WPERM is reloaded before any access (R59), and management firmware enables it with its ports open; one that is still in
its safe state stays disabled and fenced (R55). -/
def blkUp (b : Blk) (d : Dev) : Dev :=
  let d := wpermBack b d
  if isSafe b d then d else wrF b R_CTRL 0 2 (1 + 2 * b2n (missListed b d)) d

/-- A core whose firmware is verified starts. -/
def coreUp (c : CoreRef) (d : Dev) : Dev :=
  (coreBlks c).foldl (fun d b => blkUp b d)
    (modCore c (fun x => { x with fwWait := false }) { d with resets := d.resets.filter fun m => !decide (m = .core c) })

/-- Every chunk has passed: IMAGE decides. -/
def fwCheck (c : CoreRef) (d : Dev) : Dev :=
  if imageOk c d then coreUp c d else fwFail c 0 d

/-- A chunk has come to a core, by broadcast or by pull: kept where its digest matches, else pulled, at most 4 times. -/
def takeChunk (c : CoreRef) (k tries : Nat) (bs : List Byte) (bad : Bool) (d : Dev) : Dev :=
  let x := getCore c d
  if !x.fwWait || x.chunks.contains k || fwChunks (coreTy c) d ≤ k then d
  else if !bad && chunkOk (coreTy c) k bs d then
    let d := modCore c (fun x => { x with chunks := x.chunks ++ [k] }) (fwPut c (4096 * k) bs d)
    if (getCore c d).chunks.length = fwChunks (coreTy c) d then fwCheck c d else d
  else if tries < 4 then pullChunk c k tries d
  else fwFail c k d

/-- The chunks of a core's store that fail, among them those found so. -/
def badChunks (c : CoreRef) (found : List Nat) (d : Dev) : List Nat :=
  (List.range (fwChunks (coreTy c) d)).filter fun k =>
    found.contains k || !chunkOk (coreTy c) k (fwBytes c (4096 * k) (chunkLen (coreTy c) k d) d) d

/-- A core leaves a reset (R444): IMAGE over the retained store, and the failing chunks pulled where it does not match. -/
def coreStart (c : CoreRef) (found : List Nat) (d : Dev) : Dev :=
  if found.isEmpty && imageOk c d then coreUp c d
  else
    let bad := badChunks c found d
    let good := (List.range (fwChunks (coreTy c) d)).filter fun k => !bad.contains k
    let d := modCore c (fun x => { x with fwWait := true, chunks := good }) d
    if bad.isEmpty then fwFail c 0 d else bad.foldl (fun d k => pullChunk c k 0 d) d

/-- A response to a core's pull. -/
def firmwareAnswered (c : CoreRef) (k tries : Nat) (p : Packet) (d : Dev) : Dev :=
  takeChunk c k tries p.data (p.op == .nack || p.poison.any id) d

/-- FIRMWARE_CHUNK_RECEIVE (R443): a boot-broadcast chunk at a core, which a core that is fenced drops. A chunk dropped is missing, and
is pulled. Routers accept no broadcast while a context is bound. -/
def firmwareChunk (c : CoreRef) (k : Nat) (bs : List Byte) (bad : Bool) (d : Dev) : Dev :=
  if d.binds.isEmpty then takeChunk c k 0 bs (bad || fenced (.cor c) d) d else d

/-- FIRMWARE_CHUNK_RECEIVE (R443). -/
def execFirmwareChunkReceive (c : CoreRef) (chunk : Nat) (data : List Byte) (bad : Bool) (s : State) :=
  s.onDev (firmwareChunk c chunk data bad)

end Sys2Proof.Machine
end

