-- ==== Sys2Proof/Machine/Tack.lean ====
section
/-! DEFINITION. The tack unit (R170, R245) and the stream engines (R238 to R244). -/

namespace Sys2Proof.Machine

/-! ### The tack unit -/

/-- Operations of a core's tack unit not yet answered. -/
def tackOut (c : CoreRef) (d : Dev) : Nat :=
  (d.net.reqs.filter fun r => match r.by_ with | .tack k _ => decide (k = c) | _ => false).length +
  ((d.net.flows.map fun p => (p.2.held.filter fun h => match h.1 with | .tack k _ => decide (k = c) | _ => false).length).sum)

/-- What R287 accepts at its source: the space, the size and the alignment of a PUT, GET or PUT_NOTIFY. -/
def tackSpaceOk (notify : Bool) (a len : Nat) : Bool :=
  match gSpace a with
  | 0 | 1 | 2 => true
  | 3 => !notify && (len == 4 || len == 8) && a % len == 0
  | 4 => !notify && len == 8 && a % 8 == 0
  | _ => false

/-- A tack operation that the unit refuses (R245, R289). -/
def tackOk (c : CoreRef) (notify : Bool) (a loc len : Nat) (d : Dev) : Bool :=
  decide (loc + len ≤ lmSize c) && decide (a % 4096 + len ≤ 4096) && rangeOk a len d && tackSpaceOk notify a len &&
    (gDev a == ownDev d || (controlFlow c (gDev a) d).isSome)

/-- The head slot of the tack unit's queue, ready to be issued. -/
def tackHead (c : CoreRef) (d : Dev) : Option Job :=
  let x := getCore c d
  if idle (.lmm c) d || decide (16 ≤ tackOut c d) then none
  else (headJob 2 x).filter fun j => depsClear j x

/-- TACK_PUT (R170, R245): local bytes sent as one packet, with their poison (R234) (DEDUCED, log entry 50). -/
def tackPut (c : CoreRef) (d : Dev) : Dev :=
  match tackHead c d with
  | some j => match j.work with
    | .tackPut a loc len _ notify flag =>
      let nt := notify && gDev a != ownDev d
      if !tackOk c nt a loc len d then finishJob c j.id (slotFault c j.id d)
      else
        let k := keyLoc c loc
        let d := modCore c (freeReads j.id) (startJob c j.id (readEffects k len d))
        let q : Packet := { op := if nt then .putNotify else .put, addr := a, len := len - 1, last := nt,
                            aux0 := if nt then flag else 0, data := memBytes k len d,
                            poison := flitPoison (poisonBytes k len d) len }
        sendOp (.tack c j.id) (controlFlow c (gDev a) d) q d
    | _ => d
  | none => d

/-- TACK_GET (R170, R245). -/
def tackGet (c : CoreRef) (d : Dev) : Dev :=
  match tackHead c d with
  | some j => match j.work with
    | .tackGet a loc len _ _ =>
      if !tackOk c false a loc len d then finishJob c j.id (slotFault c j.id d)
      else sendOp (.tack c j.id) (controlFlow c (gDev a) d) { op := .get, addr := a, len := len - 1 } (startJob c j.id d)
    | _ => d
  | none => d

/-- The answer to a tack operation (R170, R245): its data lands, its flag advances, its slot completes. -/
def tackAnswered (c : CoreRef) (job : Nat) (p : Packet) (d : Dev) : Dev :=
  match getJob job (getCore c d) with
  | some j => match j.work with
    | .tackPut _ _ _ fe nt f => finishJob c job (if fe && !(nt && p.flow) then advFlag c f d else d)
    | .tackGet _ loc len fe f =>
      let d := memWrite (keyLoc c loc) (p.data.take len) (bytePoison p.poison len) d
      finishJob c job (if fe then advFlag c f d else d)
    | _ => d
  | none => d

/-- A NACK to a tack operation (R243, R245, R187). -/
def tackNacked (c : CoreRef) (job reason addr : Nat) (d : Dev) : Dev :=
  match getJob job (getCore c d) with
  | some j =>
    let d := failJob c job d
    if reason = nkAbsent then absentUnit c j.stream j.slot addr d else d
  | none => d

/-! ### Stream engines: starting a transfer (R238, R241, R242) -/

/-- MV_STREAM (R238, R242): a STREAM slot whose dependences have cleared passes its start to the engine. -/
def mvStream (c : CoreRef) (d : Dev) : Dev :=
  let x := getCore c d
  match ((headJob 5 x).filter fun j => depsClear j x).orElse (fun _ => (headJob 6 x).filter fun j => depsClear j x) with
  | some j => match j.work with
    | .stream e n s =>
      modStr (engKey c.die c.cl e) (fun q => { q with queue := q.queue ++ [⟨c, j.stream, j.id, n, s⟩] }) (startJob c j.id d)
    | _ => d
  | none => d

/-- The size of an ADD element (R288). -/
def addSize (t : Nat) : Nat := match t with | 0 | 2 => 4 | 1 => 8 | 3 => 2 | _ => 40

/-- The first address of a range of space 010, from offset `lo` to `hi`, that lies outside every local memory (R221): each 8 MiB of
offsets holds one core's. -/
def locBad (lo hi : Nat) : Option Nat :=
  ((List.range (hi / 2 ^ 23 - lo / 2 ^ 23 + 1)).findSome? fun i =>
    let w := (lo / 2 ^ 23 + i) * 2 ^ 23
    let first := max lo (w + (if bits w 31 2 = 3 then 0 else tySize (bits w 31 2)))
    if first ≤ hi && decide (first < w + 2 ^ 23) then some first else none)

/-- The first address of a transfer's side that R20, R221 or R241 cause 2 refuses; of a range that leaves its device or its space, the
lowest (DESIGN CHOICE, log entry 141). -/
def sideBad (r : Int × Int) (d : Dev) : Option Nat :=
  if r.1 < 0 || (2 ^ 64 : Nat) ≤ r.2 then some (wrap 64 r.1)
  else
    let lo := r.1.toNat
    let hi := r.2.toNat
    let own := gDev lo == ownDev d
    if lo / 2 ^ 46 != hi / 2 ^ 46 || !devValid d || !inTorus (gDev lo) d || decide (2 < gSpace lo) then some lo
    else if gSpace lo = 2 then
      (if 2 ^ 33 ≤ gOff lo then some lo
       else (locBad (gOff lo) (min (gOff hi) (2 ^ 33))).map (gAddr (gDev lo) 2))
    else
      let lim := if gSpace lo = 0 then nearSize else if own then farSize d else 0x17400000000
      if gOff hi < lim then none else some (gAddr (gDev lo) (gSpace lo) (max (gOff lo) lim))

/-- The first cause of R241, with the first address at fault (DEDUCED, log entry 47). -/
def strCause (c : CoreRef) (s : Option StrDesc) (d : Dev) : Option (Nat × Option Nat) :=
  match s with
  | none => some (7, none)
  | some x =>
    let sr := srcRange x
    let dr := dstRange x
    if x.bad then some (1, none)
    else match (sideBad sr d).orElse (fun _ => sideBad dr d) with
      | some a => some (2, some a)
      | none =>
        if (boundFlow (coreCtx c d) x.flow d).isNone then some (2, none)
        else if gDev x.src != ownDev d && gDev x.dst != ownDev d then some (3, some x.src)
        else if sr.1.toNat / 2 ^ 46 == dr.1.toNat / 2 ^ 46 && decide (sr.1 ≤ dr.2) && decide (dr.1 ≤ sr.2) then
          some (4, some (max sr.1 dr.1).toNat)
        else
          let n := addSize x.atype
          if x.op = 1 && (x.run % n != 0 || x.src % n != 0) then some (5, some x.src)
          else if x.op = 1 && x.dst % n != 0 then some (5, some x.dst)
          else if x.notify && gDev x.dst == ownDev d then some (6, some x.dst)
          else none

/-! ### Moving (R240, R242) -/

def strTotal (x : StrDesc) : Nat := x.cnt.foldl (· * ·) x.run

/-- The indices of run `n`, dimension 1 innermost. -/
def runIndex : List Nat → Nat → List Nat
  | [], _ => []
  | c :: t, n => n % c :: runIndex t (n / c)

/-- An address of a run: base plus the strides, modulo 2⁶⁴ (R240). -/
def runAddr (base : Nat) (strs : List Int) (ix : List Nat) : Nat :=
  wrap 64 ((base : Int) + ((ix.zip strs).map fun p => (p.1 : Int) * p.2).sum)

/-- The piece at byte `pos` of a transfer: source, destination and length. Neither side crosses a 4,096-byte boundary (R287); an
ADD moves whole elements, and reads an element that crosses one in its source in two parts. -/
def pieceAt (x : StrDesc) (pos : Nat) : Nat × Nat × Nat :=
  let ix := runIndex x.cnt (pos / x.run)
  let off := pos % x.run
  let s := (runAddr x.src x.sstr ix + off) % 2 ^ 64
  let t := (runAddr x.dst x.dstr ix + off) % 2 ^ 64
  let e := addSize x.atype
  let n := min (x.run - off) (min (4096 - s % 4096) (4096 - t % 4096))
  (s, t, if x.op != 1 then n else if off % e ≠ 0 then min n (e - off % e) else if e ≤ n then n / e * e else n)

/-- The piece's destination crosses a boundary inside an element: no ADD may carry it (R287) (DEDUCED, log entry 48). -/
def splitElem (x : StrDesc) (pos : Nat) : Bool :=
  let p := pieceAt x pos
  x.op == 1 && decide (4096 < p.2.1 % 4096 + (addSize x.atype - pos % x.run % addSize x.atype))

/-- Parts of one element, read apart, come together; any other piece stands alone. -/
def joinPiece (e : Nat) (g : Nat × List (Byte × Bool) × Bool) (got : List (Nat × List (Byte × Bool) × Bool)) :
    List (Nat × List (Byte × Bool) × Bool) :=
  if g.2.1.length % e = 0 then got ++ [g]
  else match got.find? fun h => h.2.1.length % e != 0 && (h.1 + h.2.1.length == g.1 || g.1 + g.2.1.length == h.1) with
    | some h => got.erase h ++ [if h.1 < g.1 then (h.1, h.2.1 ++ g.2.1, h.2.2 || g.2.2) else (g.1, g.2.1 ++ h.2.1, h.2.2 || g.2.2)]
    | none => got ++ [g]

/-- A request of an engine can leave now: at once within the device, on its flow when the window has room and no request waits there
before it (R242, R316). -/
def strRoom (f : Option Nat) (q : Packet) (d : Dev) : Bool :=
  gDev q.addr == ownDev d ||
    f.all fun n => !((getFlow n d).held.any fun h => issuerGoes h.1 d) && canEmit n (reqBytes q) d

/-- The record of a NACK (R243, R249). -/
def strNackRec (dd cc i desc reason addr : Nat) (d : Dev) : Dev :=
  let b : Blk := .str dd cc i
  if rdBit b R_EVENT 8 d then d
  else setEvent b 8 (wr64 b STR_NACK_ADDR_LO addr (wr b STR_NACK (reason + desc * 65536) d))

/-- A transfer whose next piece no packet may carry ends as one that is refused with ADDRESS_FAULT (R243, R287) (DEDUCED, log entry 48). -/
def strSplit (dd cc i : Nat) (t : Xfer) (d : Dev) : Dev :=
  strNackRec dd cc i t.s.desc nkAddress (pieceAt t.d t.pos).2.1
    (modStr (engKey dd cc i) (fun q => { q with xfers := q.xfers.map fun x => if x.id = t.id then { x with nacked := true, got := [] } else x })
      (latch (.str dd cc i) cAddressFault d))

/-- Requests of an engine not yet answered. -/
def strOut (q : StrSt) : Nat := (q.xfers.map fun t => t.fetches + t.writes).sum

def modXfer (k id : Nat) (f : Xfer → Xfer) (d : Dev) : Dev :=
  modStr k (fun q => { q with xfers := q.xfers.map fun t => if t.id = id then f t else t }) d
def getXfer (k id : Nat) (d : Dev) : Option Xfer := (getStr k d).xfers.find? fun t => t.id == id

/-- NOTIFY counts only with FLAG_EN, as in the tack unit (R170, R182). -/
def strNotify (x : StrDesc) : Bool := x.flagEn && x.notify

/-- Reads of a transfer issued while the engine has room (R242) (DEDUCED, log entry 48). -/
def issueReads (dd cc i id : Nat) : Nat → Dev → Dev
  | 0, d => d
  | n + 1, d =>
    let k := engKey dd cc i
    match getXfer k id d with
    | some t =>
      let p := pieceAt t.d t.pos
      let f := boundFlow (coreCtx t.s.core d) t.d.flow d
      let q : Packet := { op := .get, addr := p.1, len := p.2.2 - 1 }
      if decide (256 ≤ strOut (getStr k d)) || decide (strTotal t.d ≤ t.pos) || t.nacked || t.stale || !strRoom f q d then d
      else if splitElem t.d t.pos then strSplit dd cc i t d
      else
        let last := decide (strTotal t.d ≤ t.pos + p.2.2)
        let d := modXfer k id (fun t => { t with pos := t.pos + p.2.2, fetches := t.fetches + 1 }) d
        issueReads dd cc i id n (sendOp (.fetch dd cc i id p.2.1 last) f q d)
    | none => d

/-- Whether a piece read may be written yet: a gather with VMODE writes nothing before every response has been compared
(R244, R391), the piece that carries NOTIFY goes last (R293), and an ADD waits for its whole element. -/
def mayWrite (t : Xfer) (n : Nat) (last : Bool) : Bool :=
  let all := decide (strTotal t.d ≤ t.pos) && t.fetches == 0
  (t.d.op != 1 || n % addSize t.d.atype == 0) && (t.d.vmode == 0 || all) && (!(strNotify t.d && last) || (all && t.got.length == 1))

/-- Pieces read are written while the engine has room. -/
def issueWrites (dd cc i id : Nat) : Nat → Dev → Dev
  | 0, d => d
  | n + 1, d =>
    let k := engKey dd cc i
    match getXfer k id d with
    | some t =>
      if t.nacked || t.stale || decide (256 ≤ strOut (getStr k d)) then d
      else match t.got.find? fun g => mayWrite t g.2.1.length g.2.2 with
        | none => d
        | some g =>
          let nt := strNotify t.d && g.2.2
          let q : Packet := { op := if t.d.op = 1 then .add else if nt then .putNotify else .put, addr := g.1, len := g.2.1.length - 1,
                              atype := if t.d.op = 1 then t.d.atype else 0, last := nt, aux0 := if nt && t.d.op = 0 then t.d.flag else 0,
                              data := g.2.1.map (·.1), poison := flitPoison (g.2.1.map (·.2)) g.2.1.length }
          let f := boundFlow (coreCtx t.s.core d) t.d.flow d
          if !strRoom f q d then d
          else
            let d := modXfer k id (fun t => { t with writes := t.writes + 1, got := t.got.erase g }) d
            issueWrites dd cc i id n (sendOp (.store dd cc i id) f q d)
    | none => d

/-- An ADD transfer with NOTIFY whose writes have all been acknowledged sends the flag's update on its flow (DEDUCED, log entry 21). -/
def issueNotify (dd cc i id : Nat) (d : Dev) : Dev :=
  let k := engKey dd cc i
  match getXfer k id d with
  | some t =>
    let ctx := coreCtx t.s.core d
    let f := boundFlow ctx t.d.flow d
    let q : Packet := { op := .flagAdd, addr := gAddr (gDev t.d.dst) 4 (ctx * 0x20000 + 8 * t.d.flag), len := 7, data := toBytes 8 1 }
    if strNotify t.d && t.d.op == 1 && !t.flagSent && t.writes == 0 && t.fetches == 0 && decide (strTotal t.d ≤ t.pos) && t.got.isEmpty &&
        !t.nacked && !t.stale && strRoom f q d then
      sendOp (.store dd cc i id) f q (modXfer k id (fun t => { t with writes := t.writes + 1, flagSent := true }) d)
    else d
  | none => d

/-- A transfer moves on as far as it can; in its safe state or in reset the engine issues nothing (R250). -/
def strMove (dd cc i id : Nat) (d : Dev) : Dev :=
  if idle (.str dd cc i) d then d
  else issueNotify dd cc i id (issueWrites dd cc i id 256 (issueReads dd cc i id 256 d))

/-- Every transfer of an engine moves on, in start order. -/
def strPump (dd cc i : Nat) (d : Dev) : Dev :=
  (getStr (engKey dd cc i) d).xfers.foldl (fun d t => strMove dd cc i t.id d) d

/-- Every engine with transfers moves on. -/
def enginesGo (d : Dev) : Dev :=
  (d.net.engines.filter fun e => !e.2.xfers.isEmpty).foldl (fun d e => strPump (e.1 / 16) (e.1 / 2 % 8) (e.1 % 2) d) d

/-- The window of a flow has opened: the requests that wait for it go, and the engines that had no room move on (R242, R316). -/
def flowOpened (f : Nat) (d : Dev) : Dev := enginesGo (pump f d)

/-- The transfer has still to issue requests. -/
def stillIssuing (t : Xfer) : Bool :=
  !t.nacked && !t.stale && (decide (t.pos < strTotal t.d) || t.fetches != 0 || !t.got.isEmpty || (strNotify t.d && t.d.op == 1 && !t.flagSent))

/-- STREAM_TRANSFER_BEGIN (R241, R242): the next start in the queue is checked, and refused or begun. -/
def strBegin (dd cc i : Nat) (d : Dev) : Dev :=
  let k := engKey dd cc i
  let q := getStr k d
  if idle (.str dd cc i) d || q.xfers.any stillIssuing then d
  else match q.queue with
    | [] => d
    | s :: rest =>
      let d := modStr k (fun q => { q with queue := rest }) d
      match strCause s.core s.d d, s.d with
      | some (cause, a), _ =>
        finishJob s.core s.job (slotStop s.core s.job (strRefuse s.core i s.desc s.stream cause a d))
      | none, some x =>
        let d := modStr k (fun q => { q with next := q.next + 1, xfers := q.xfers ++ [{ id := q.next, s := s, d := x }] }) d
        let d := wr (.str dd cc i) STR_CUR (s.desc + s.core.slot * 256 + s.stream * 4096) d
        strMove dd cc i q.next d
      | none, none => d

/-! ### Answers (R243, R244, R391) -/

/-- Nothing of the transfer is outstanding. -/
def xferEnded (t : Xfer) : Bool :=
  t.fetches == 0 && t.writes == 0 &&
    (t.nacked || t.stale || (decide (strTotal t.d ≤ t.pos) && t.got.isEmpty && (!(strNotify t.d && t.d.op == 1) || t.told)))

/-- A stale gather (R244, R391): STR and the issuing sequencer latch it (R67), and the stream stops before its next word. -/
def staleGather (dd cc i : Nat) (t : Xfer) (d : Dev) : Dev :=
  let d := stopStream t.s.core t.s.stream 7 (latch (.seq t.s.core) cStaleGather (latch (.str dd cc i) cStaleGather d))
  modXfer (engKey dd cc i) t.id (fun t => { t with stale := true, got := [] }) d

/-- The tag of a response against the transfer's mode (R391) (DEDUCED, log entry 49). -/
def tagBad (q : StrSt) (t : Xfer) (tag : Nat) : Bool :=
  t.d.vmode != 0 &&
    (t.tag.any (· != tag) || tag == 0 || tag == 0xFFFFFFFF ||
     (t.d.vmode == 2 && ((q.recs.find? fun r => r.1 == t.d.vrec).map (·.2)) != some tag))

/-- Data for a piece of a transfer (R244). -/
def fetchAnswered (dd cc i id dst : Nat) (last : Bool) (p : Packet) (d : Dev) : Dev :=
  let k := engKey dd cc i
  match getXfer k id d with
  | some t =>
    let d := modXfer k id (fun t => { t with fetches := t.fetches - 1, tag := some (t.tag.getD p.aux1) }) d
    let d := if t.fetches = 1 && strTotal t.d ≤ t.pos then modCore t.s.core (freeReads t.s.job) d else d
    if t.nacked || t.stale then d
    else if tagBad (getStr k d) t p.aux1 then staleGather dd cc i t d
    else
      let d := if t.d.vmode = 1 then modStr k (fun q => { q with recs := Sparse.set (fun _ => 0) q.recs t.d.vrec p.aux1 }) d else d
      let g := p.data.zip (bytePoison p.poison p.data.length)
      strPump dd cc i (modXfer k id (fun t => { t with got := joinPiece (if t.d.op = 1 then addSize t.d.atype else 1) (dst, g, last) t.got }) d)
  | none => d

/-- A write of a transfer has been acknowledged, or its flag's update (`told`). -/
def storeAnswered (dd cc i id n : Nat) (told : Bool) (d : Dev) : Dev :=
  let k := engKey dd cc i
  match getXfer k id d with
  | some _ =>
    strPump dd cc i (bump64 (.str dd cc i) STR_BYTES_LO n
      (modXfer k id (fun t => { t with writes := t.writes - 1, told := t.told || told }) d))
  | none => d

/-- A NACK to a request of a transfer (R243, R249, R187). -/
def strNacked (dd cc i id reason addr : Nat) (fetch : Bool) (d : Dev) : Dev :=
  let k := engKey dd cc i
  match getXfer k id d with
  | some t =>
    let d := modXfer k id (fun t => { t with fetches := t.fetches - b2n fetch, writes := t.writes - b2n (!fetch), nacked := true, got := [] }) d
    let d := strNackRec dd cc i t.s.desc reason addr d
    if reason = nkAbsent then absentUnit t.s.core t.s.stream 5 addr d else d
  | none => d

/-! ### Completion (R242, R243) -/

/-- Completed transfers leave the engine; flags advance in start order. A transfer with NOTIFY, whose flag the destination advances, holds
later flags back until it has ended. -/
def flushXfers : List Xfer → Bool → Dev → Dev × List Xfer
  | [], _, d => (d, [])
  | t :: ts, blocked, d =>
    let flagged := t.d.flagEn && !t.d.notify
    if !t.ended then
      let r := flushXfers ts (blocked || t.d.flagEn) d
      (r.1, t :: r.2)
    else if flagged && !t.nacked && !t.stale then
      if blocked then
        let r := flushXfers ts true d
        (r.1, t :: r.2)
      else flushXfers ts false (advFlag t.s.core t.d.flag d)
    else flushXfers ts blocked d

/-- STREAM_TRANSFER_COMPLETE (R242, R243): the first transfer whose requests have all been answered completes its slot, and the
flags that are due advance. -/
def strComplete (dd cc i : Nat) (d : Dev) : Dev :=
  let k := engKey dd cc i
  match (getStr k d).xfers.find? fun t => !t.ended && xferEnded t with
  | some t =>
    let d := modXfer k t.id (fun t => { t with ended := true }) d
    let d := if t.nacked || t.stale then failJob t.s.core t.s.job d else finishJob t.s.core t.s.job d
    let r := flushXfers (getStr k d).xfers false d
    modStr k (fun q => { q with xfers := r.2 }) r.1
  | none => d

/-! ### The commands -/

/-- TACK_PUT (R170). -/
def execTackPut (c : CoreRef) (s : State) := s.onDev (tackPut c)
/-- TACK_GET (R170). -/
def execTackGet (c : CoreRef) (s : State) := s.onDev (tackGet c)
/-- MV_STREAM (R170). -/
def execMvStream (c : CoreRef) (s : State) := s.onDev (mvStream c)
/-- STREAM_TRANSFER_BEGIN (R242). -/
def execStreamTransferBegin (d c i : Nat) (s : State) := s.onDev (strBegin d c i)
/-- STREAM_TRANSFER_COMPLETE (R242). -/
def execStreamTransferComplete (d c i : Nat) (s : State) := s.onDev (strComplete d c i)

end Sys2Proof.Machine
end

