-- ==== Sys2Proof/Machine/Issue.lean ====
section
/-! DEFINITION. What a response brings about at the unit that issued the request (R242 to R245, R298, R320, R371, R411). -/

namespace Sys2Proof.Machine

/-- A multicast packet to a member has been refused (R371): refused data, or a reservation whose flow has ended (R318, R320 rule 5), stops the entry
that sent it and gives the transfer up; any other refused reservation goes on waiting. -/
def mcNacked (n m reason : Nat) (op : Op) (d : Dev) : Dev :=
  match (ownGroup n d).bind fun g => g.todo.head?.map fun x => (g, x) with
  | some (g, x) =>
    let stop (d : Dev) : Dev := pressStop x.ctx (x.ent.getD 0) 3 (((g.members[m]?).elim 0 (·.2.1)) + x.off) d
    if op = .mcData then mcastLanded n (stop d)
    else if reason = nkUnreachable then (if x.ent.isNone then mcDrop n (stop d) else stop d)
    else d
  | none => d

/-- A NACK completes a request at its issuer (R243, R298). -/
def nackIssuer (r : Req) (reason : Nat) (d : Dev) : Dev :=
  match r.by_ with
  | .mgmt => d
  | .firmware c k n => firmwareAnswered c k n { op := .nack } d
  | .tack c j => tackNacked c j reason r.addr d
  | .sync c st _ slot => if reason = nkAbsent then absentUnit c st slot r.addr d else d
  | .fetch dd cc i x _ _ => strNacked dd cc i x reason r.addr true d
  | .store dd cc i x => strNacked dd cc i x reason r.addr false d
  | .mcast g m => mcNacked g m reason r.op d
  | .press ctx e op => pressNacked ctx e op r.addr d
  | .baste ctx _ op _ => basteNacked ctx op r.addr d
  | .dump c => dumpNacked c reason d

/-- An acknowledgement, or data, completes a request at its issuer. -/
def answerIssuer (r : Req) (p : Packet) (d : Dev) : Dev :=
  match r.by_ with
  | .mgmt | .sync _ _ _ _ | .dump _ => d
  | .firmware c k n => firmwareAnswered c k n p d
  | .tack c j => tackAnswered c j p d
  | .fetch dd cc i x dst last => fetchAnswered dd cc i x dst last p d
  | .store dd cc i x => storeAnswered dd cc i x r.bytes (decide (r.op = .flagAdd)) d
  | .mcast g m => if r.op = .mcReserve then mcGranted g m d else mcastLanded g d
  | .press ctx e op => pressAnswered ctx e op d
  | .baste ctx _ op dst => basteAnswered ctx op dst p d

/-- A response reaches its issuer: the tracking entry is freed, the request is completed, and the window that has opened lets the requests
that wait for it go (R312, R316). A response that no request waits for is discarded (R297). -/
def takeResponse (p : Packet) (d : Dev) : Dev :=
  match takeReq p d with
  | (some r, d) =>
    let d := if p.op = .nack then nackIssuer r p.aux0 d else answerIssuer r p d
    match r.flow with
    | some f => mcWake (flowOpened f d)
    | none => d
  | (none, d) => d

/-- A request that is given up is completed at its issuer as a NACK (R318, R436). -/
def failReq (r : Req) (reason : Nat) (d : Dev) : Dev :=
  if d.net.reqs.any (fun x => x.tag == r.tag) then
    nackIssuer r reason { d with net := { d.net with reqs := d.net.reqs.filter fun x => x.tag != r.tag } }
  else d

/-- Every outstanding request of a flow ends as NACK carrying UNREACHABLE (R318). -/
def failFlow (f : Nat) (d : Dev) : Dev :=
  (d.net.reqs.filter fun r => r.flow == some f).foldl (fun d r => failReq r nkUnreachable d) d

end Sys2Proof.Machine
end

