-- ==== Sys2Proof/Machine/Mark.lean ====
section
/-! DEFINITION. The Marker's search (R251 to R264, R271): the checks of a pattern, assignments, flow contexts, the schedule and the
placement of buffers. Nothing here changes the device. -/

namespace Sys2Proof.Machine

/-! ### Jobs -/

def jobAt (ctx : Nat) (d : Dev) : Option JobSt := d.jobs.find? fun j => j.ctx == ctx
def dropJob (ctx : Nat) (d : Dev) : Dev := { d with jobs := d.jobs.filter fun j => j.ctx != ctx }
/-- The jobs are kept in ascending context order. -/
def putJob (j : JobSt) (d : Dev) : Dev :=
  { d with jobs := d.jobs.filter (fun k => decide (k.ctx < j.ctx)) ++ j :: d.jobs.filter fun k => decide (j.ctx < k.ctx) }
def modBound (ctx : Nat) (f : JobSt → JobSt) (d : Dev) : Dev :=
  { d with jobs := d.jobs.map fun j => if j.ctx = ctx then f j else j }

/-- The job holds cores: its switch is armed, or it is bound. -/
def holdsCores (j : JobSt) : Bool := j.phase == 0 || j.phase == 1 || j.phase == 4
def bound (ctx : Nat) (d : Dev) : Bool := (jobAt ctx d).any fun j => j.phase == 1 || j.phase == 4
/-- The contexts bound on the device. -/
def boundCtxs (d : Dev) : List Nat := (d.jobs.filter fun j => j.phase == 1 || j.phase == 4).map (·.ctx)

/-! ### The frame budget and the bins (R202, R255, R458) -/

/-- C and B for a length, a clock in MHz and a guard (R202). -/
def cyclesOf (len f : Nat) : Nat := len * f / 100
def budgetOf (len f g : Nat) : Nat := cyclesOf len f * (1000 - g) / 1000

/-- The bins: 1,500 to 1,900 MHz in steps of 25. -/
def binList : List Nat := (List.range 17).map fun i => 1500 + 25 * i

/-- f_min of a pattern (R255); an unframed one has none. -/
def clkMin (p : Pattern) : Nat :=
  if p.framed then (binList.find? fun f => decide (p.wmax ≤ budgetOf p.len f p.guard)).getD 100000 else 0

/-- The bin a cluster has: its wear bin and the power cap, each with the lower one pending where that counts (R17, R255, R458). -/
def binOf (wear cap : Bool) (p : Nat) (d : Dev) : Nat :=
  let v := rdB .age AGE_CLU p d
  let w := bits v 0 12 - (if wear && bit v 23 then 25 else 0)
  min w (if cap && rdBit .pwr PWR_BINCAP 31 d then rdF .pwr PWR_BINCAP 16 12 d else rdF .pwr PWR_BINCAP 0 12 d)

def clusterBin (pending : Bool) (p : Nat) (d : Dev) : Nat := binOf pending pending p d

/-- The host's cap, taken as 1,200 W in the safe state of PWR (R469). -/
def capHost (d : Dev) : Nat := if isSafe .pwr d then 1200 else rd .pwr PWR_CAP_HOST d
def sustained (d : Dev) : Nat := rdF .pwr PWR_RATING 0 16 d
/-- The cap without a floor (R452) (DEDUCED, log entry 105). -/
def capNow (d : Dev) : Nat := min (rd .pwr PWR_CAP_TRAY d) (capHost d)

def planFixed (d : Dev) : Nat := if isSafe .pwr d then (if gradeS d then 698 else 788) else rdF .pwr PWR_PLAN 0 16 d
def planClu (d : Dev) : Nat := if isSafe .pwr d then (if gradeS d then 63 else 84) else rdF .pwr PWR_PLAN 16 8 d

/-- The power need of `n` clusters at `f` MHz, in 1,900ths of a watt (R458). -/
def need1900 (n f : Nat) (d : Dev) : Nat := 1900 * planFixed d + n * planClu d * f
def needFits (n f : Nat) (d : Dev) : Bool := decide (need1900 n f d ≤ 1900 * capNow d)

/-! ### Step 1 and 2: form and grade (R251, R253) -/

/-- The greatest depth of a device in the tree (R195). -/
def treeDepth (d : Dev) : Nat := ((List.range 5).map fun n => axisLen n d / 2).sum

/-- The header's limits (R192, R202, R208, R251). -/
def headerOk' (p : Pattern) (d : Dev) : Bool :=
  decide (400 ≤ p.len) && decide (p.len ≤ 25600) && decide (10 ≤ p.guard) && decide (p.guard ≤ 100) && decide (p.planned < 65536) &&
  decide (p.lead ≤ 15) && decide (ceilDiv (treeDepth d * 40) p.len + 1 ≤ p.lead) && decide (0 < p.epochSegs) &&
  decide (0 < p.period) && decide (p.period ≤ 64)

def coreNo (c : PatCore) : Nat := 256 * c.ty + c.n

/-- A relocation names what the pattern declares, and a place within it (R257). -/
def relocOk (p : Pattern) (r : PatReloc) : Bool :=
  (if r.isFlow then p.flows.any fun f => f.n == r.item else p.buffers.any fun b => b.n == r.item) &&
  (match r.loc with
   | .sreg w n => decide (n < 16) && p.cores.any fun c => c.ty == w.ty && c.n == w.n
   | .word b off lo => decide (lo < 64) && p.buffers.any fun x => x.n == b && decide (off + 8 ≤ x.size))

/-- The first number of a list that stands there before. -/
def dupAt (l : List Nat) : Option Nat := (List.range l.length).find? fun i => (l.take i).contains (l.getD i 0)

/-- The first section entry out of its range, in its section's numbering (R251, R259). -/
def sectionFault (p : Pattern) : Option Nat :=
  (p.cores.findIdx? fun c => !(decide (c.ty < 3) && decide (c.n < 256) && decide (c.lc < 32) && decide (c.persist.length ≤ 4))) <|>
  dupAt (p.cores.map coreNo) <|>
  (p.buffers.findIdx? fun b => !(decide (b.n < 65536) && decide (0 < b.size) && decide (b.hint < 3))) <|> dupAt (p.buffers.map (·.n)) <|>
  (p.flows.findIdx? fun f => !(decide (f.n < 16384) && decide (0 < f.winPkts) && decide (f.winPkts ≤ 64) && decide (0 < f.win4k) &&
    decide (f.win4k ≤ 64) && decide (f.kind < 4))) <|> dupAt (p.flows.map (·.n)) <|>
  (p.sched.findIdx? fun e => !(decide (0 < e.count) && decide (e.first + e.count ≤ 32) && decide (e.hopClass < 4) &&
    p.flows.any fun f => f.n == e.flow)) <|>
  (p.balance.findIdx? fun b => !decide (b.cores.length ≤ 8)) <|>
  (p.migs.findIdx? fun m => !(m.slots.all (fun s => decide (s < 32)) && p.buffers.any fun b => b.n == m.buffer)) <|>
  (p.relocs.findIdx? fun r => !relocOk p r) <|>
  (p.groups.findIdx? fun g => !decide (g.n < 1024)) <|> dupAt (p.groups.map fun g => g.n + 1024 * g.source) <|>
  (p.reds.findIdx? fun g => !(decide (g.n < 1024) && decide (g.mc < 1024)))

/-- Streams of a core type (R153). -/
def tyStreams (ty : Nat) : Nat := if ty = 2 then 8 else 4

/-- A logical core or stream beyond the grade (cause 3). -/
def coreBeyond (c : PatCore) (d : Dev) : Bool :=
  decide (gradeCores c.ty d ≤ c.n) || c.streams.any fun s => decide (tyStreams c.ty ≤ s)

def endBeyond (dev ty n : Nat) (d : Dev) : Bool := dev == ownDev d && decide (gradeCores ty d ≤ n)
def wordBeyond (w : WordRef) (d : Dev) : Bool := decide (gradeCores w.ty d ≤ w.n) || decide (tyStreams w.ty ≤ w.stream)

/-- The first entry, section by section, that names a logical core or stream of this device beyond the grade (R187, R253). -/
def gradeFault (p : Pattern) (d : Dev) : Option Nat :=
  (p.cores.findIdx? fun c => coreBeyond c d) <|>
  (p.buffers.findIdx? fun b => b.home.any fun h => decide (gradeCores h.1 d ≤ h.2)) <|>
  (p.flows.findIdx? fun f => endBeyond f.srcDev f.srcTy f.srcCore d || endBeyond f.dstDev f.dstTy f.dstCore d) <|>
  (p.waits.findIdx? fun w => wordBeyond w.word d || w.members.any fun m => m.device.all (· == ownDev d) && wordBeyond m.word d) <|>
  (p.balance.findIdx? fun b => b.cores.any fun n => decide (gradeCores 0 d ≤ n))

/-! ### Step 3: the wait graph (R271) -/

/-- Words in the order core, stream, position. -/
def wordKey (w : WordRef) : Nat := ((w.ty * 256 + w.n) * 8 + w.stream) * 2 ^ 40 + w.pos

/-- The words that a word has an edge to: the next word of its stream, and the waits that count it. -/
def waitEdges (p : Pattern) (w : WordRef) : List WordRef :=
  let after := p.syWords.filter fun x => x.ty == w.ty && x.n == w.n && x.stream == w.stream && decide (w.pos < x.pos)
  let next := after.filter fun x => after.all fun y => decide (x.pos ≤ y.pos)
  next ++ (p.waits.filter fun v => v.members.any fun m => m.device.isNone && decide (m.word = w)).map (·.word)

/-- The words reached from `frontier` within `k` edges. -/
def reachFrom (p : Pattern) : Nat → List WordRef → List WordRef → List WordRef
  | 0, seen, _ => seen
  | k + 1, seen, front =>
    let new := ((front.flatMap (waitEdges p)).filter fun x => !seen.contains x).eraseDups
    if new.isEmpty then seen else reachFrom p k (seen ++ new) new

/-- The wait on a cycle that comes first, as its entry in the Waits section. -/
def waitCycle (p : Pattern) : Option Nat :=
  let bad := p.waits.zipIdx.filter fun v => (reachFrom p (p.syWords.length + p.waits.length) [] [v.1.word]).contains v.1.word
  let first := bad.filter fun v => bad.all fun u => decide (wordKey v.1.word ≤ wordKey u.1.word)
  first.head?.map (·.2)

/-! ### Step 4: assignments (R254, R255) -/

/-- Cores that other jobs hold. -/
def heldCores (ctx : Nat) (d : Dev) : List Nat :=
  ((d.jobs.filter fun j => j.ctx != ctx && holdsCores j).flatMap fun j => j.cores.map Prod.snd) ++
    (d.binds.filter fun p => p.1 / 1024 != ctx && p.2 != 0).map fun p => p.2 - 1

/-- Healthy cores of a type in physical cluster `p` that no other job holds, in slot order. -/
def freeSlots (ctx p ty : Nat) (d : Dev) : List CoreRef :=
  let slots := match ty with | 0 => List.range 9 | 1 => [9, 10] | _ => [11]
  (slots.map fun s => (⟨p / 8, p % 8, s⟩ : CoreRef)).filter fun c => coreAlive c d && !(heldCores ctx d).contains (coreKey c)

/-- The logical cores of a type in a logical cluster, ascending. -/
def coresOf (p : Pattern) (q ty : Nat) : List Nat := (List.range 256).filter fun n => p.cores.any fun c => c.ty == ty && c.n == n && c.lc == q

/-- The logical clusters that hold cores, ascending. -/
def clustersOf (p : Pattern) : List Nat := (List.range 32).filter fun q => p.cores.any fun c => c.lc == q

/-- Physical cluster `c` can hold logical cluster `q`. -/
def canHold (ctx : Nat) (p : Pattern) (q c : Nat) (d : Dev) : Bool :=
  (List.range 3).all (fun ty => decide ((coresOf p q ty).length ≤ (freeSlots ctx c ty d).length)) &&
    decide ((coresOf p q 0).length ≤ rdF .glb GLB_GRADE 8 4 d)

/-- The search order of a logical cluster (R254). -/
def tryOrder (q : Nat) : List Nat := (List.range 32).map fun i => (q + i) % 32

/-- The first choice that gives a result; the cause of the last one tried otherwise. -/
def firstOf {α : Type} (f : Nat → Nat → Option α × Nat) : List Nat → Nat → Option α × Nat
  | [], c => (none, c)
  | p :: ps, c => match f p c with
    | (some r, c) => (some r, c)
    | (none, c) => firstOf f ps c

/-- Assignments depth first: pairs (logical, physical), newest first, given to `k` once complete. `ok` says which cluster may hold which;
the result is the first that `k` accepts, else the cause of the last one tried. -/
def searchAll {α : Type} (ok : Nat → Nat → Bool) (k : List (Nat × Nat) → Nat → Option α × Nat) :
    List Nat → List (Nat × Nat) → Nat → Option α × Nat
  | [], asg, c => k asg c
  | q :: qs, asg, c =>
    firstOf (fun p c => searchAll ok k qs ((q, p) :: asg) c) ((tryOrder q).filter fun p => ok q p && !asg.any fun a => a.2 == p) c

/-- Some assignment exists. -/
def anyAssign (ok : Nat → Nat → Bool) (qs : List Nat) : Bool := (searchAll ok (fun _ _ => (some (), 0)) qs [] 0).1.isSome

/-- The cores that an assignment binds: `256 type + n` and the core's key (R254). -/
def coresFor (ctx : Nat) (p : Pattern) (asg : List (Nat × Nat)) (d : Dev) : List (Nat × Nat) :=
  asg.flatMap fun a => (List.range 3).flatMap fun ty =>
    ((coresOf p a.1 ty).zip (freeSlots ctx a.2 ty d)).map fun x => (256 * ty + x.1, coreKey x.2)

/-- Clusters with bound work of other jobs. -/
def busyClusters (ctx : Nat) (d : Dev) : List Nat := ((heldCores ctx d).map fun k => k / 16).eraseDups

/-- f_min of the framed contexts bound or being fitted (R255). -/
def clkMinAll (ctx : Nat) (p : Pattern) (d : Dev) : Nat :=
  (d.jobs.filter fun j => j.ctx != ctx && holdsCores j).foldl (fun m j => max m (clkMin j.pat)) (clkMin p)

/-! ### Step 5: flow contexts and the schedule (R256, R259 to R261) -/

/-- What a fitting decides. -/
structure FitPlan where
  asg : List (Nat × Nat)
  cores : List (Nat × Nat)
  clk : Nat
  flows : List (Nat × Nat)
  migFlows : List Nat
  links : List (Nat × Nat)
  loads : List Load
  bufs : List BufPlace
deriving DecidableEq, Repr

/-- Flow contexts in use by other jobs. -/
def usedFlows (ctx : Nat) (d : Dev) : List Nat := (d.jobs.filter fun j => j.ctx != ctx).flatMap fun j => j.flows.map (·.2) ++ j.migFlows

/-- The first `k` numbers from `i` on that `used` does not hold, below 16,384. -/
def lowestFree (used : List Nat) : Nat → Nat → Nat → List Nat
  | 0, _, _ => []
  | fuel + 1, k, i =>
    if k = 0 || 16384 ≤ i then []
    else if used.contains i then lowestFree used fuel k (i + 1)
    else i :: lowestFree used fuel (k - 1) (i + 1)

/-- Insertion sort; equal elements keep their order. -/
def insertLe {α : Type} (le : α → α → Bool) (x : α) : List α → List α
  | [] => [x]
  | y :: l => if le x y then x :: y :: l else y :: insertLe le x l
def sortLe {α : Type} (le : α → α → Bool) : List α → List α
  | [] => []
  | x :: l => insertLe le x (sortLe le l)

def sortNat (l : List Nat) : List Nat := sortLe (fun a b => decide (a ≤ b)) l

/-- The routers on the escape route from `p` to `t`, as hops (position, output). -/
def escHops (t : Nat) (d : Dev) : Nat → Nat → List (Nat × Nat)
  | 0, _ => []
  | k + 1, p =>
    if p = t then []
    else
      let o := bits (rtEntry p (activeBank p d) t d) 0 3
      match neighbour p o with
      | some q => (p, o) :: escHops t d k q
      | none => []

/-- The mesh time of a hop (R260): 4 cycles over a bridge, else 2. -/
def hopTime (h : Nat × Nat) : Nat :=
  match neighbour h.1 h.2 with
  | some q => if posX h.1 / 8 ≠ posX q / 8 || posY h.1 / 6 ≠ posY q / 6 then 4 else 2
  | none => 0

def classBound (c : Nat) : Nat := 8 * 2 ^ c

/-- Seven eighths of an element's capacity for one slot at a stitch length (R261). -/
def loadLimit (elem len : Nat) : Nat := if elem < 1000 then 532 * len / 8 else 875 * len / 16

/-- The bytes that cross an element in a slot of a Stitch. -/
def loadAt (ls : List Load) (elem st slot : Nat) : Nat :=
  ((ls.filter fun l => l.elem == elem && bit l.mask (st % l.period) && decide (l.first ≤ slot) && decide (slot < l.first + l.count)).map (·.bytes)).sum

/-- New loads stay within the limits together with those there are (DEDUCED, log entry 106). -/
def loadsFit (all new : List Load) (len : Nat) : Bool :=
  let period := all.foldl (fun m l => Nat.lcm m l.period) 1
  new.all fun l => (List.range period).all fun st =>
    !bit l.mask (st % l.period) || (List.range l.count).all fun i => decide (loadAt all l.elem st (l.first + i) ≤ loadLimit l.elem len)

/-- The core of a logical number in a list of bound cores. -/
def coreIn (cores : List (Nat × Nat)) (ty n : Nat) : Option CoreRef := (cores.find? fun c => c.1 == 256 * ty + n).map fun c => coreOfKey c.2

/-- The step a scheduled packet takes at device `cur` on its way to `dst`: axis, side, and the next device (R313). -/
def schedStep (cur dst : Nat) (d : Dev) : Option (Nat × Nat × Nat) :=
  ((List.range 5).find? fun n => coordOf dst n != coordOf cur n).map fun n =>
    let len := axisLen n d
    let c := coordOf cur n
    let side := if 2 * ((coordOf dst n + len - c) % len) ≤ len then 0 else 1
    (n, side, putBits cur (3 * n) 3 ((c + (if side = 0 then 1 else len - 1)) % len))

/-- The bundle over which traffic from `cur` to `dst` comes to this device, if its route passes here. -/
def comesOver (dst : Nat) (d : Dev) : Nat → Nat → Option (Nat × Nat)
  | 0, _ => none
  | k + 1, cur => (schedStep cur dst d).bind fun s => if s.2.2 = ownDev d then some (s.1, 1 - s.2.1) else comesOver dst d k s.2.2

/-- Where a scheduled flow enters this device's mesh (R259): its core; or the port of the link it comes over, which the device before this one
chooses: any up link of the bundle, left free (DESIGN CHOICE, log entry 106). None where the flow does not touch this device. -/
def flowEntry (cores : List (Nat × Nat)) (f : PatFlow) (d : Dev) : Option (Option Nat) :=
  if f.srcDev = ownDev d then some ((coreIn cores f.srcTy f.srcCore).map corePos)
  else (comesOver f.dstDev d 20 f.srcDev).map fun b =>
    let ls := (bundle b.1 b.2).filter fun l => linkUp l d
    (ls[Config.arrivalLink f.n d.free % max 1 ls.length]?).map lnkAt

/-- A flow's schedule entries carried from router to router, with the link it leaves over: the loads, if it stays within its classes and the
limits (R260, R261). -/
def carry (p : Pattern) (es : List PatSched) (from_ to_ : Nat) (link : Option Nat) (all : List Load) (d : Dev) : Option (List Load) :=
  let h := escHops to_ d 40 from_
  let elems := h.map (fun x => 4 * x.1 + x.2) ++ link.toList.map (1000 + ·)
  let new := es.flatMap fun e => elems.map fun x =>
    ({ elem := x, period := p.period, mask := e.mask, first := e.first, count := e.count, bytes := e.bytes } : Load)
  if es.all (fun e => decide ((h.map hopTime).sum ≤ classBound e.hopClass)) && loadsFit (all ++ new) new p.len then some new else none

/-- One flow embedded with all its entries (R259 to R261): the link chosen, if it leaves the device, and its loads; none where it cannot be. -/
def embed (p : Pattern) (cores : List (Nat × Nat)) (f : PatFlow) (es : List PatSched) (all : List Load) (d : Dev) :
    Option (Option Nat × List Load) :=
  match flowEntry cores f d with
  | none => some (none, [])
  | some none => none
  | some (some at_) =>
    if f.dstDev = ownDev d then
      (coreIn cores f.dstTy f.dstCore).bind fun t => (carry p es at_ (corePos t) none all d).map fun new => (none, new)
    else (schedStep (ownDev d) f.dstDev d).bind fun s =>
      ((bundle s.1 s.2.1).filter fun l => linkUp l d && !d.age.lowEyes.contains l).findSome? fun l =>
        (carry p es at_ (lnkAt l) (some l) all d).map fun new => (some l, new)

/-- The scheduled flows in ascending logical flow order: the links chosen and the loads; or the first entry of the flow that fails. -/
def embedAll (p : Pattern) (cores : List (Nat × Nat)) (d : Dev) : List PatFlow → List (Nat × Nat) → List Load → List Load →
    Except Nat (List (Nat × Nat) × List Load)
  | [], links, _, mine => .ok (links, mine)
  | f :: fs, links, all, mine =>
    match embed p cores f (p.sched.filter fun e => e.flow == f.n) all d with
    | some (l, new) => embedAll p cores d fs (l.toList.map (fun x => (f.n, x)) ++ links) (all ++ new) (mine ++ new)
    | none => .error ((p.sched.findIdx? fun e => e.flow == f.n).getD 0)

/-! ### Step 6: buffers, migration slots and balance groups (R262 to R264) -/

/-- Space taken: the firmware reserve (R442), and what jobs hold. -/
def takenSpace (ctx space : Nat) (d : Dev) : List (Nat × Nat) :=
  (if space = 0 then [(0x17C000000, 0x180000000)] else []) ++
  (d.jobs.filter fun j => j.ctx != ctx).flatMap fun j => (j.bufs.filter fun b => b.space == space).map fun b => (b.off, b.off + b.size)

def alignUp (a : Nat) : Nat := ceilDiv a 4096 * 4096

/-- The lowest place for `size` bytes within `[lo, hi)` clear of `busy`: R262 does not say which free place a buffer takes (DESIGN CHOICE, log
entry 136). -/
def firstFit (lo hi size : Nat) (busy : List (Nat × Nat)) : Option Nat :=
  let cands := (alignUp lo :: busy.map fun b => alignUp b.2).filter fun x =>
    decide (lo ≤ x) && decide (x + size ≤ hi) && busy.all fun b => decide (x + size ≤ b.1) || decide (b.2 ≤ x)
  cands.foldl (fun m x => match m with | some y => some (min x y) | none => some x) none

/-- Intervals in ascending order, those that touch joined. -/
def joinIv (l : List (Nat × Nat)) : List (Nat × Nat) :=
  (sortLe (fun (a b : Nat × Nat) => decide (a.1 ≤ b.1)) l).foldr (fun h r => match r with
    | k :: ks => if alignUp h.2 ≥ k.1 then (h.1, max h.2 k.2) :: ks else h :: k :: ks
    | [] => [h]) []

/-- A place in a region: within the space that the context holds first, then anywhere that is free (R436). -/
def allocIn (held busy : List (Nat × Nat)) (lo hi size : Nat) : Option Nat :=
  ((joinIv held).filter fun h => decide (lo < h.2) && decide (h.1 < hi)).findSome? (fun h => firstFit (max lo h.1) (min hi h.2) size busy) <|>
    firstFit lo hi size busy

def dieNear : Nat := 0x180000000

/-- A buffer in the near store: its home die first, then the others ascending (R262). -/
def placeNear (held busy : List (Nat × Nat)) (home size : Nat) : Option Nat :=
  (home :: (List.range 4).filter (· != home)).findSome? fun k => allocIn held busy (k * dieNear) ((k + 1) * dieNear) size

/-- The die of a buffer's home core; a buffer without one is taken as homed on die 0. -/
def homeDie (cores : List (Nat × Nat)) (b : PatBuffer) : Nat :=
  match b.home with
  | some h => ((coreIn cores h.1 h.2).map (·.die)).getD 0
  | none => 0

/-- Buffers placed in the order of R262: near-store buffers, ANY buffers while they fit, the rest in far memory; or the buffer that fails. -/
def placeAll (heldN heldF farEnd : List (Nat × Nat)) (far : Nat) (cores : List (Nat × Nat)) :
    List (PatBuffer × Bool × Bool) → List (Nat × Nat) → List (Nat × Nat) → List BufPlace → Except Nat (List BufPlace)
  | [], _, _, out => .ok out
  | (b, near, must) :: bs, bn, bf, out =>
    let try1 := if near then placeNear heldN bn (homeDie cores b) b.size else none
    match try1 with
    | some x => placeAll heldN heldF farEnd far cores bs (bn ++ [(x, x + b.size)]) bf (out ++ [{ n := b.n, space := 0, off := x, size := b.size }])
    | none =>
      if near && must then .error b.n
      else if near then placeAll heldN heldF farEnd far cores bs bn bf out
      else match allocIn heldF bf 0 far b.size with
        | some x => placeAll heldN heldF farEnd far cores bs bn (bf ++ [(x, x + b.size)]) (out ++ [{ n := b.n, space := 1, off := x, size := b.size }])
        | none => .error b.n

/-- The placement of a pattern's buffers for a set of bound cores. Buffers already placed (`kept`) stay where they are
(DEDUCED, log entry 74). -/
def placeBufs (ctx : Nat) (p : Pattern) (cores : List (Nat × Nat)) (kept held : List BufPlace) (d : Dev) : Except Nat (List BufPlace) :=
  let todo := p.buffers.filter fun b => !kept.any fun k => k.n == b.n && k.size == b.size
  let byNo := fun (a b : PatBuffer) => decide (a.n ≤ b.n)
  let nears := sortLe byNo (todo.filter fun b => b.hint == 0)
  let anys := sortLe (fun a b => decide (b.reuse < a.reuse) || (a.reuse == b.reuse && decide (a.n ≤ b.n))) (todo.filter fun b => b.hint == 2)
  let iv (s : Nat) (l : List BufPlace) : List (Nat × Nat) := (l.filter fun b => b.space == s).map fun b => (b.off, b.off + b.size)
  let bn := takenSpace ctx 0 d ++ iv 0 kept
  let bf := takenSpace ctx 1 d ++ iv 1 kept
  let hn := iv 0 held
  let hf := iv 1 held
  match placeAll hn hf [] (farSize d) cores (nears.map (fun b => (b, true, true)) ++ anys.map fun b => (b, true, false)) bn bf [] with
  | .error n => .error n
  | .ok near =>
    let rest := sortLe byNo (todo.filter fun b => b.hint == 1 || (b.hint == 2 && !near.any fun x => x.n == b.n))
    match placeAll hn hf [] (farSize d) cores (rest.map fun b => (b, false, true)) bn bf [] with
    | .error n => .error n
    | .ok far => .ok (kept ++ near ++ far)

/-- The load of a migration slot (R261, R263): a move joins its buffer's home die with far memory, whose controllers share the bytes of a
slot (DEDUCED, log entry 137). -/
def migLoads (p : Pattern) (cores : List (Nat × Nat)) (m : PatMig) (d : Dev) : List Load :=
  let home := ((p.buffers.find? fun b => b.n == m.buffer).map fun b => homeDie cores b).getD 0
  (List.range 24).flatMap fun f =>
    let far := fmcPos (f / 6) (f % 6)
    let near := nscPos far home (f % 4) d
    (escHops (if m.toNear then near else far) d 40 (if m.toNear then far else near)).flatMap fun x => m.slots.map fun s =>
      { elem := 4 * x.1 + x.2, period := 1, mask := 1, first := s, count := 1, bytes := ceilDiv m.bytesPerSlot 24 }

/-- The loads of the migration slots with those there are; or the first slot that breaks R263: the move does not fit its slots within the
limits, or the buffer is used in them. -/
def placeMigs (p : Pattern) (cores : List (Nat × Nat)) (d : Dev) : List (PatMig × Nat) → List Load → List Load → Except Nat (List Load)
  | [], _, mine => .ok mine
  | (m, i) :: ms, all, mine =>
    let size := ((p.buffers.find? fun b => b.n == m.buffer).map (·.size)).getD 0
    let new := migLoads p cores m d
    if m.touched || decide (m.slots.length * m.bytesPerSlot < size) || !loadsFit (all ++ new) new p.len then .error i
    else placeMigs p cores d ms (all ++ new) (mine ++ new)

/-- A word of a movable segment draws from a generator: a stochastic drain or CVT, or RNG (R264). -/
def wordStochastic (w : LongWord) : Bool :=
  (slotOf w 3).any (fun v => bits v 0 2 == 0 && bits v 6 2 == 2) ||
  (slotOf w 4).any fun v => bits v 0 8 == 0x0A || (bits v 0 8 == 7 && bits v 12 2 == 1)

/-- The flags that a word updates by its own bits: completion flags and the SY update. -/
def wordFlags (w : LongWord) : List Nat :=
  ((slotOf w 3).toList.filter fun v => bit v 56).map (fun v => bits v 42 14) ++
  (((slotOf w 5).toList.filter fun v => (bits v 0 4 == 2 || bits v 0 4 == 3) && bit v 63).map fun v => bits v 64 14) ++
  (((slotOf w 5).toList.filter fun v => bits v 0 4 == 4 && bit v 77).map fun v => bits v 78 14) ++
  ((slotOf w 6).toList.filter fun v => decide (2 ≤ bits v 0 3) && decide (bits v 0 3 ≤ 5)).map fun v => bits v 3 14

/-- A movable segment has a property that R264 forbids and its words show. -/
def segBad (g : PatSegment) : Bool := g.words.any fun bs =>
  let w := parseWord bs
  wordStochastic w || (wordFlags w).any (· != g.done)

/-- A balance group breaks R264: a movable segment with a forbidden property, or cores of more than one logical cluster. -/
def balBad (p : Pattern) (b : PatBalance) : Bool :=
  let lcs := (p.cores.filter fun c => c.ty == 0 && b.cores.contains c.n).map (·.lc)
  b.kOverTokens || b.foreignAdd || b.segs.any segBad || b.segs.any (fun g => !b.cores.contains g.core) ||
    (match lcs with | [] => false | l :: ls => ls.any (· != l))

/-! ### Steps 4 to 6 together -/

/-- What is kept of a bound job as it is refitted: the places of its buffers. -/
structure FitArgs where
  ctx : Nat
  pat : Pattern
  epoch : Bool
  kept : List BufPlace
  held : List BufPlace
deriving DecidableEq, Repr

/-- The failing item travels with its cause: `cause + 16 (item + 1)`; a cause alone names no item. -/
def causeOf (c i : Nat) : Nat := c + 16 * (i + 1)

/-- A pending lower bin counts for a cluster in this fitting (R17, R255): at a fitting epoch of the context with bound work there, and on a cluster
that holds no bound work, as the example beside R255 has it (DEDUCED, log entry 138). -/
def pendCounts (ctx : Nat) (epoch : Bool) (p : Nat) (d : Dev) : Bool :=
  (epoch && (ctxCores ctx d).any fun c => c.die * 8 + c.cl == p) || !(busyClusters ctx d).contains p

/-- The bin of a cluster as a fitting takes it. -/
def fitBin (a : FitArgs) (p : Nat) (d : Dev) : Nat := binOf (pendCounts a.ctx a.epoch p d) a.epoch p d

/-- Where a refit puts the buffers: each stays in its place unless R262 now gives it another space (R269) (DEDUCED, log entry 77). -/
def refitBufs (a : FitArgs) (cores : List (Nat × Nat)) (d : Dev) : Except Nat (List BufPlace) :=
  if a.kept.isEmpty then placeBufs a.ctx a.pat cores [] a.held d
  else match placeBufs a.ctx a.pat cores [] a.kept d with
    | .error _ => placeBufs a.ctx a.pat cores a.kept [] d
    | .ok new =>
      let stay := a.kept.filter fun b => new.any fun x => x.n == b.n && x.space == b.space
      match placeBufs a.ctx a.pat cores stay (a.kept.filter fun b => !stay.contains b) d with
      | .ok l => .ok l
      | .error _ => placeBufs a.ctx a.pat cores a.kept [] d

/-- Reduction groups whose flows leave over link `l`: those of other contexts, and those of a pattern with its links chosen. -/
def redGroupsOn (ctx : Nat) (p : Pattern) (links : List (Nat × Nat)) (l : Nat) (d : Dev) : Nat :=
  ((d.net.reds.filter fun g => g.ctx != ctx && g.members.any fun m => (getFlow m.2.2 d).link == some l).length) +
    (p.reds.filter fun g => g.members.any fun m => links.contains (m.2.2, l)).length

/-- The RED region of a link, 2,048 flits, cannot hold an area of 72 for each of its reduction groups and each subclass (R311)
(DEDUCED, log entry 131). -/
def redAreasOver (ctx : Nat) (p : Pattern) (links : List (Nat × Nat)) (d : Dev) : Bool :=
  (List.range 32).any fun l => decide (2048 < 144 * redGroupsOn ctx p links l d)

/-- Steps 4 to 6 for one assignment: its clock, flow contexts, schedule, buffers, balance groups and migration slots. -/
def tryAssign (a : FitArgs) (d : Dev) (asg : List (Nat × Nat)) (_ : Nat) : Option FitPlan × Nat :=
  let p := a.pat
  let used := ((asg.map (·.2)) ++ busyClusters a.ctx d).eraseDups
  let f := (used.map fun c => fitBin a c d).foldl min 1900
  if f < clkMinAll a.ctx p d then (none, 9)
  else if !needFits used.length f d then (none, 10)
  else
    let cores := coresFor a.ctx p asg d
    let ns := sortNat (p.flows.map (·.n))
    let phys := lowestFree (usedFlows a.ctx d) 16384 (ns.length + p.migs.length) 0
    if phys.length < ns.length + p.migs.length then (none, causeOf 6 phys.length)
    else
      let others := (d.jobs.filter fun j => j.ctx != a.ctx).flatMap (·.loads)
      let fs := sortLe (fun (x y : PatFlow) => decide (x.n ≤ y.n)) (p.flows.filter fun f => p.sched.any fun e => e.flow == f.n)
      match embedAll p cores d fs [] others [] with
      | .error i => (none, causeOf 7 i)
      | .ok (links, loads) =>
        if redAreasOver a.ctx p links d then (none, 7)
        else match refitBufs a cores d with
        | .error n => (none, causeOf 5 ((p.buffers.findIdx? fun b => b.n == n).getD 0))
        | .ok bufs =>
          match placeMigs p cores d p.migs.zipIdx (others ++ loads) [] with
          | .error i => (none, causeOf 13 i)
          | .ok moves =>
            match p.balance.findIdx? (balBad p) with
            | some i => (none, causeOf 12 i)
            | none => (some { asg := asg.reverse, cores := cores, clk := f, flows := ns.zip phys, migFlows := phys.drop ns.length, links := links,
                              loads := loads ++ moves, bufs := bufs }, 0)

/-- Step 4 with what follows it (R253). -/
def searchFit (a : FitArgs) (d : Dev) : Except Nat FitPlan :=
  let qs := clustersOf a.pat
  let hold (q c : Nat) : Bool := canHold a.ctx a.pat q c d
  let fm := clkMinAll a.ctx a.pat d
  if !anyAssign hold qs then .error 4
  else if !anyAssign (fun q c => hold q c && decide (fm ≤ fitBin a c d)) qs then .error 9
  else match searchAll (fun q c => hold q c && decide (fm ≤ fitBin a c d)) (tryAssign a d) qs [] 4 with
    | (some x, _) => .ok x
    | (none, c) => .error c

/-- The device carries its stitch number in step with the tree (R197). -/
def isAligned (d : Dev) : Bool := (rdBit .tck TCK_CFG 0 d && !rdBit .tck TCK_CFG 1 d) || d.tck.aligned

/-- The device's multicast groups would exceed 1,024, or another context has one of a number of this pattern's from the same source (R319)
(DESIGN CHOICE, log entry 145). -/
def groupClash (ctx : Nat) (p : Pattern) (d : Dev) : Bool :=
  let others := d.net.groups.filter fun g => g.ctx != ctx
  decide (1024 < others.length + p.groups.length) || p.groups.any fun g => others.any fun o => o.n == g.n && o.source == g.source

/-- Steps 1 to 6 and the check of step 7; the result is a plan, or a cause with its item. `auth` is the outcome of R478
(DEDUCED, log entry 76). -/
def fitChecks (auth : Nat) (a : FitArgs) (d : Dev) : Except Nat FitPlan :=
  let p := a.pat
  if auth ≠ 0 then .error 1
  else if !p.wellFormed || !headerOk' p d then .error 2
  else match sectionFault p with
  | some i => .error (causeOf 2 i)
  | none =>
    if !p.grades.contains (rdF .glb GLB_GRADE 0 2 d) then .error 3
    else match gradeFault p d with
    | some i => .error (causeOf 3 i)
    | none => match waitCycle p with
      | some i => .error (causeOf 8 i)
      | none => if groupClash a.ctx p d then .error 6 else match searchFit a d with
        | .error c => .error c
        | .ok x => if isAligned d then .ok x else .error 11

end Sys2Proof.Machine
end

