-- ==== Sys2Proof/Machine/Reset.lean ====
section
/-! DEFINITION. Resets (R23 to R28, R284, R433 to R446): fence, drain, reset, and what each domain keeps. -/

namespace Sys2Proof.Machine

/-! ### Domains -/

/-- Domain `a` contains domain `b`, or is it. -/
def domCovers (a b : Dom) : Bool :=
  decide (a = b) ||
  match a, b with
  | .chip, _ => true
  | .die k, .cluster d _ => k == d
  | .die k, .core c => k == c.die
  | .die k, .engine b => blkDie b == some k
  | .cluster d c, .core r => d == r.die && c == r.cl
  | .cluster d c, .engine b => blkCluster b == some (d, c)
  | .core c, .engine b => blkCore b == some c
  | _, _ => false

/-- The cores that a domain covers. -/
def domCore (m : Dom) (c : CoreRef) : Bool := domCovers m (.core c)

/-- The blocks of a domain. -/
def domBlks (m : Dom) : List Blk :=
  match m with
  | .core c => coreBlks c
  | .cluster d c => cluBlks d c
  | .die d => (dieBlks d).filter fun b => !decide (b = .rstd d)
  | .engine b => [b]
  | _ => []

/-- The cores of a domain. -/
def domCores (m : Dom) : List CoreRef :=
  match m with
  | .core c => [c]
  | .cluster d c => cluCores d c
  | .die d => (List.range 8).flatMap fun c => cluCores d c
  | _ => []

/-- An outer reset takes over what a running one covers; between the two of one core, the core's own reset is the outer (R434)
(DEDUCED, log entry 98). -/
def takesOver (new old : Dom) (newCtx oldCtx : Bool) : Bool :=
  domCovers new old && (decide (new ≠ old) || (oldCtx && !newCtx))

def isCtx : Dom → Bool
  | .context _ => true
  | _ => false

/-! ### Outstanding requests of a domain (R433) -/

/-- A request issued by a core that `p` names, or by a stream engine for one. -/
def byCore (p : CoreRef → Bool) (i : Issuer) (d : Dev) : Bool :=
  let eng (dd cc k x : Nat) : Bool := (getXfer (engKey dd cc k) x d).any fun t => p t.s.core
  match i with
  | .tack c _ | .sync c _ _ _ | .dump c => p c
  | .fetch dd cc k x _ _ => eng dd cc k x
  | .store dd cc k x => eng dd cc k x
  | _ => false

/-- A request issued by a unit of the domain. -/
def byDom (m : Dom) (i : Issuer) (d : Dev) : Bool :=
  byCore (domCore m) i d ||
  match i with
  | .fetch dd cc k _ _ _ | .store dd cc k _ => domCovers m (.engine (.str dd cc k))
  | .press _ e _ => domCovers m (.engine (.prs (e % 4)))
  | .baste _ k _ _ => domCovers m (.engine (.snp k))
  | _ => false

def runOwns (r : ResetRun) (i : Issuer) (d : Dev) : Bool := r.doms.any fun m => byDom m i d

/-- A member's window in the domain, or of the context that is reset, is granted, and the data has not landed (R321) (DEDUCED, log entry 59). -/
def grantOpen (m : Dom) (d : Dev) : Bool := d.net.groups.any fun g =>
  g.reserved && (ownMember g d).any fun x => decide (m = .context g.ctx) ||
    match spotOf g.ctx x.2.1 d with | .mem k => domHas m (keyBlk k d) | _ => false

/-- The run still waits for a response, or for granted multicast data. -/
def runWaits (r : ResetRun) (d : Dev) : Bool := (d.net.reqs.any fun q => runOwns r q.by_ d) || (r.dom :: r.doms).any (grantOpen · d)

/-! ### Records (R446) -/

def modRun (r : ResetRun) (f : ResetRun → ResetRun) (d : Dev) : Dev :=
  { d with runs := d.runs.map fun x => if x.rst = r.rst && x.entry = r.entry then f x else x }

def endRun (r : ResetRun) (d : Dev) : Dev := { d with runs := d.runs.filter fun x => !(decide (x.rst = r.rst) && x.entry == r.entry) }

/-- The running reset's record counts a request it discards or takes over. -/
def countDiscard (r : ResetRun) (d : Dev) : Dev :=
  let v := rdB r.rst RST_REC r.entry d
  wrB r.rst RST_REC r.entry (putBits v 23 4 (sat 15 (bits v 23 4 + 1))) d

/-- A record is written at the fence; its entry. -/
def newRecord (rb : Blk) (kind target cause : Nat) (d : Dev) : Nat × Dev :=
  let e := rdF rb RST_REC_HEAD 0 4 d
  let d := wrB rb RST_REC e (kind + target % 65536 * 8 + cause % 16 * 2 ^ 19 + 2 ^ 31) d
  let d := wrB64 rb RST_REC_NUM_LO e (stitchNum d) (wrB rb RST_REC_US e 0 d)
  (e, wrF rb RST_REC_HEAD 0 4 (e + 1) d)

/-! ### What a reset clears (R435) -/

def keyBase (key : Nat) : Nat := key % bankStep / 0x4000 * 0x4000

/-- Registers that a core, cluster or die reset keeps: repair tables, the binding, slot states and channel states; on die 0 the context
registers of PRS and SNP (R435, R439) (DEDUCED, log entry 100). -/
def keptReg (key : Nat) : Bool :=
  let o := regOff key
  match keyBlock key with
  | some (.arr _) => decide (ARR_REPAIR_ROW0 ≤ o) && decide (o ≤ ARR_REPAIR_COL3)
  | some (.seq _) => o == SEQ_CTX
  | some (.clu _ _) => o == CLU_SLOT
  | some (.fmc _ _) => decide (FMC_CHAN0 ≤ o) && decide (o ≤ FMC_CHAN3)
  | some (.prs k) => k == 0 && decide (bankStep ≤ key) && o != PRS_TRK_CFG && o != PRS_TRK_CUR && o != PRS_TRK_HIST
  | some (.snp k) => k == 0 && decide (bankStep ≤ key)
  | _ => false

/-- Blocks return to their reset values. -/
def clearBlks (bs : List Blk) (d : Dev) : Dev :=
  let bases := bs.map blkBase
  let hit (k : Nat) : Bool := bases.contains (keyBase k)
  { d with regs := d.regs.filter fun p => !hit p.1 || keptReg p.1
           parityBad := d.parityBad.filter (!hit ·)
           safe := d.safe.filter (!hit ·)
           eccOnce := d.eccOnce.filter (!hit ·)
           hiLatch := d.hiLatch.filter fun p => !hit p.1.1 }

/-- What a core holds is cleared: local memory, accumulators, streams, generators, slots, and what stream engines do for it. -/
def wipeCore (c : CoreRef) (d : Dev) : Dev :=
  let k := keyLoc c 0
  let n := 2 ^ 23
  let x := getCore c d
  let mine (i : Issuer) : Bool := byCore (fun y => decide (y = c)) i d
  let net := { d.net with
    reqs := d.net.reqs.filter fun r => !mine r.by_
    flows := d.net.flows.map fun f => (f.1, { f.2 with held := f.2.held.filter fun h => !mine h.1 })
    engines := d.net.engines.map fun e => (e.1, { e.2 with
      queue := e.2.queue.filter fun s => !decide (s.core = c)
      xfers := e.2.xfers.filter fun t => !decide (t.s.core = c) }) }
  setCore c { nextJob := x.nextJob, nextWord := x.nextWord }
    { d with mem := Sparse.clearRange k n d.mem
             poison := Sparse.unmarkRange k n d.poison
             flaws := Sparse.clearRange k n d.flaws
             wback := Sparse.unmarkRange k n d.wback
             net := net }

/-- A stream engine's queue and transfers are discarded. -/
def wipeStr (dd cc i : Nat) (d : Dev) : Dev :=
  let mine (x : Issuer) : Bool := byDom (.engine (.str dd cc i)) x d
  setStr (engKey dd cc i) {} { d with net := { d.net with
    reqs := d.net.reqs.filter fun r => !mine r.by_
    flows := d.net.flows.map fun f => (f.1, { f.2 with held := f.2.held.filter fun h => !mine h.1 }) } }

/-- Requests that a memory controller has accepted are refused (R438) (DEDUCED, log entry 60). -/
def refuseAt (b : Blk) (d : Dev) : Dev :=
  let at_ (a : Arrival) : Bool := isRequest a.pkt.op &&
    (match spotOf (arrCtx a d) a.pkt.addr d with | .mem k => decide (keyBlk k d = b) | _ => false)
  (d.net.arrived.filter at_).foldl (fun d a => dropAt (blkPos mgmtPos b d) nkTargetReset a.pkt (takeArrived a d)) d

/-- An engine reset's effect on its unit (R438). -/
def wipeEngine (b : Blk) (d : Dev) : Dev :=
  match b with
  | .str dd cc i => wipeStr dd cc i d
  | .nsc _ _ | .fmc _ _ => refuseAt b d
  | .lnk dd i =>
    let l := 8 * dd + i
    if !linkPresent l d then d
    else if devValid d && rdBit b LNK_CFG 0 d then linkLeaves l 2 d else linkDown l 1 d
  | .mrk => { d with fits := [] }
  | _ => d

/-! ### Routing round a die (R284) -/

def posDie (p : Nat) : Nat := posX p / 8 + 2 * (posY p / 6)

/-- Full tables, or tables that take a die's routers as out of service, are built and switched to at once (DEDUCED, log entry 103). -/
def retable (without : Option Nat) (d : Dev) : Dev :=
  let up (p : Nat) : Bool := !isRetired p d && without != some (posDie p) && !inReset (posBlk p) d
  switchTables up (buildTables up d)

/-- Packets that stand in the routers of a die are lost; requests among them are answered. The routers that face the die report the port. -/
def dropInDie (k : Nat) (d : Dev) : Dev :=
  let here (m : MeshPkt) : Bool := posDie m.at_ == k
  let lost := (d.net.mesh ++ d.net.hold).filter here
  let d := { d with net := { d.net with mesh := d.net.mesh.filter (!here ·), hold := d.net.hold.filter (!here ·) } }
  let d := lost.foldl (fun d m => if isRequest m.a.pkt.op then respNack m.at_ nkTargetReset m.a.pkt d else d) d
  let faces := rising.filter fun p => posDie p != k && [0, 1, 2, 3].any fun o => (neighbour p o).any fun q => posDie q == k
  faces.foldl (fun d p => setEvent (posBlk p) 9 d) d

/-! ### Performing a reset -/

/-- One domain is reset. -/
def resetDom (m : Dom) (d : Dev) : Dev :=
  match m with
  | .core _ | .cluster _ _ =>
    let d := (domCores m).foldl (fun d c => wipeCore c d) d
    let d := match m with | .cluster dd cc => wipeStr dd cc 1 (wipeStr dd cc 0 d) | _ => d
    clearBlks (domBlks m) d
  | .die k =>
    let d := retable (some k) d
    let d := (domCores m).foldl (fun d c => wipeCore c d) d
    let d := (List.range 16).foldl (fun d i => wipeStr k (i / 2) (i % 2) d) d
    let d := (List.range 8).foldl (fun d i => if linkState (8 * k + i) d = 0 then d else linkDown (8 * k + i) 1 d) d
    let gone (i : Issuer) : Bool := byDom m i d
    let d := { d with net := { d.net with reqs := d.net.reqs.filter fun r => !gone r.by_ } }
    let states := (List.range 8).map fun i => linkState (8 * k + i) d
    let d := clearBlks (domBlks m) (dropInDie k d)
    states.zipIdx.foldl (fun (d : Dev) (s : Nat × Nat) => wrF (.lnk k s.2) LNK_STATE 0 3 s.1 d) d
  | .engine b => wipeEngine b d
  | _ => d

/-- Every register of a flow context returns to its reset value, and what it holds goes. -/
def freeFlow (f : Nat) (d : Dev) : Dev :=
  let mine (k : Nat) : Bool := keyBase k == blkBase .fab && k / bankStep == f + 1 && regOff k != FAB_MC
  { d with regs := d.regs.filter (fun p => !mine p.1)
           net := { d.net with flows := d.net.flows.filter (fun p => p.1 != f), binds := d.net.binds.filter (fun b => b.phys != f) } }

/-- FAB_MC of a group: defined, the device its source, the members (R319). -/
def syncMc (n : Nat) (d : Dev) : Dev :=
  let gs := d.net.groups.filter fun g => g.n == n
  let v := match gs with
    | [] => 0
    | g :: _ => 1 + (rdB .fab FAB_MC n d / 2 % 2) * 2 + 4 * b2n (gs.any fun g => g.source == ownDev d) + g.members.length % 65536 * 65536
  wrB .fab FAB_MC n v d

/-- The multicast and reduction groups of a context go. -/
def dropGroups (ctx : Nat) (d : Dev) : Dev :=
  let ns := ((d.net.groups.filter fun g => g.ctx == ctx).map (·.n)).eraseDups
  let d := { d with net := { d.net with groups := d.net.groups.filter (fun g => g.ctx != ctx), reds := d.net.reds.filter (fun g => g.ctx != ctx) } }
  ns.foldl (fun d n => syncMc n d) d

/-- Steps 3 to 5 of a context reset (R436): flow contexts end, Press and Baste stop, the Marker shows the context stopped. -/
def ctxStopped (ctx : Nat) (d : Dev) : Dev :=
  let fs := match jobAt ctx d with | some j => j.flows.map Prod.snd ++ j.migFlows | none => []
  let d := fs.foldl (fun d f => freeFlow f (failFlow f d)) d
  let d := dropGroups ctx d
  let d := prsW ctx PRS_CTL (putBits (prsR ctx PRS_CTL d) 0 1 0) (pressDisabled ctx d)
  let sn := getSnap ctx d
  let d := if sn.snap.isSome then setEvent snp0 11 d else d
  let d := modSnap ctx (fun x => { x with pend := none, capturing := false, mirrorLost := false, restore := none, restored := false,
                                          snap := none, snapSent := false, gen := none, relay := none, recorded := none, held := [], acts := 0 }) (snpPhase ctx 0 (abandonGen ctx d))
  let cs := ctxCores ctx d
  let d := cs.foldl (fun d c => wr (.seq c) SEQ_CTX 0 d) d
  let d := setSeam ctx {} { d with binds := d.binds.filter (fun p => p.1 / 1024 != ctx) }
  let d := modTck (fun t => { t with stops := t.stops.filter (·.1 != ctx) }) d
  modBound ctx (fun j =>
    { j with phase := if j.phase = 3 then 3 else 2, cores := [], clus := [], flows := [], migFlows := [], loads := [], unbind := false, due := false }) d

/-- The domains of a run are reset (R433 step 3) (DEDUCED, log entry 99). -/
def performRun (r : ResetRun) (expired : Bool) (d : Dev) : Dev :=
  let d := if expired then
      let v := rdB r.rst RST_REC r.entry d
      wrB r.rst RST_REC r.entry (putBits v 27 1 1) d
    else d
  let mine (i : Issuer) : Bool := runOwns r i d
  let d : Dev := { d with net := { d.net with
    reqs := d.net.reqs.filter fun q => !mine q.by_
    flows := d.net.flows.map fun f => (f.1, { f.2 with held := f.2.held.filter fun h => !mine h.1 }) } }
  let d : Dev := { d with press := d.press.map fun p => (p.1, { p.2 with queue := p.2.queue.filter fun h => !mine (.press p.1 h.1 h.2.1) }) }
  let d := armedReset (fun b => r.doms.any (domHas · b)) d
  let d := r.doms.foldl (fun d m => resetDom m d) d
  let d := match r.dom with | .context x => ctxStopped x d | _ => d
  modRun r (fun x => { x with done := true }) { d with resets := d.resets ++ r.doms.filter fun m => !d.resets.contains m }

/-- Runs whose requests have all been answered are performed. -/
def drainCheck (d : Dev) : Dev :=
  (d.runs.filter fun r => !r.done).foldl (fun d r =>
    match d.runs.find? fun x => decide (x.rst = r.rst) && x.entry == r.entry with
    | some r => if r.done || runWaits r d then d else performRun r false d
    | none => d) d

/-! ### Beginning a reset (R27, R28, R433, R434) -/

/-- The fence of R28 step 1: the ports of the domain's blocks are fenced and its streams start no further word. -/
def fenceDom (m : Dom) (d : Dev) : Dev :=
  let d := (domBlks m).foldl (fun d b => wrBit b R_CTRL 1 true d) d
  (domCores m).foldl (fun d c => (List.range (nStreams c)).foldl (fun d n => modStream c n (fun s => { s with halted := true }) d) d) d

/-- A fault, fence or reset of a bound core is a trigger of its context's refit (R267); the resets of a context reset are none (R437). -/
def faultTrigger (doms : List Dom) (d : Dev) : Dev :=
  let hits (c : CoreRef) : Bool := doms.any fun m => domCore m c ||
    (match m with | .engine b => blkCore b == some c || blkCluster b == some (c.die, c.cl) | _ => false)
  { d with jobs := d.jobs.map fun j =>
      if (j.phase == 1 || j.phase == 4) && j.cores.any (fun c => hits (coreOfKey c.2)) then { j with trig := putBits j.trig 0 1 1 } else j }

/-- A reset begins: nesting with those that run is resolved, the record is written, the ports are fenced, and the domain is reset when
nothing is outstanding. -/
def beginRun (dom : Dom) (doms : List Dom) (kind target cause : Nat) (rb : Blk) (d : Dev) : Dev :=
  let ctx := isCtx dom
  let wins (r : ResetRun) (m : Dom) : Bool := doms.any fun n => takesOver n m ctx (isCtx r.dom)
  let under (n : Dom) (r : ResetRun) : Bool := r.doms.any fun m => domCovers m n && !takesOver n m ctx (isCtx r.dom)
  let mine := doms.filter fun n => !d.runs.any (under n)
  match d.runs.find? fun r => decide (r.dom = dom) || (!ctx && mine.isEmpty && doms.any fun n => under n r) with
  | some r => countDiscard r d
  | none =>
    let taken := d.runs.filter fun r => r.doms.any (wins r)
    let d := { d with runs := (d.runs.map fun r => { r with doms := r.doms.filter (!wins r ·) }).filter fun r =>
                 !r.doms.isEmpty || isCtx r.dom || !taken.any fun t => decide (t.rst = r.rst) && t.entry == r.entry }
    let d := if ctx then d else faultTrigger mine d
    let e := newRecord rb kind target cause d
    let run : ResetRun := { dom := dom, doms := mine, rst := rb, entry := e.1 }
    let d := { e.2 with runs := e.2.runs ++ [run] }
    let d := taken.foldl (fun d _ => countDiscard run d) d
    drainCheck (mine.foldl (fun d m => fenceDom m d) d)

/-- A core, its cluster or its die shows a fault that makes a refit of its context due (R267, R437): an error of its hardware, a fence, or a
block in its safe state (DEDUCED, log entry 101). -/
def coreFaulty (c : CoreRef) (d : Dev) : Bool :=
  (coreBlks c ++ ([.clu c.die c.cl, .str c.die c.cl 0, .str c.die c.cl 1, .die c.die] : List Blk)).any fun b =>
    isSafe b d || fenced b d ||
      (faultValid b d && [cResidueMismatch, cEccUncorrected, cCfgParity, cBistFail, cRepairExhausted].contains (rdF b R_FAULT 0 16 d))

/-- Triggers of a job as MRK_REFIT shows them. -/
def jobTriggers (j : JobSt) (d : Dev) : Nat :=
  if (j.phase == 1 || j.phase == 4) && j.cores.any (fun c => coreFaulty (coreOfKey c.2) d) then putBits j.trig 0 1 1 else j.trig

/-- FRAME_EN of a context. -/
def setFramed (ctx : Nat) (on : Bool) (d : Dev) : Dev := wr64 .tck TCK_FRAME_EN_LO (putBits (rd64 .tck TCK_FRAME_EN_LO d) ctx 1 (b2n on)) d

/-- An MSI-X message of a VF: vector 0 a context reset, 1 FIT_DONE (R504). -/
def vfVector (ctx v : Nat) (d : Dev) : Dev := toHost false (.msix (ctx + 1) v) d

/-- The fitting or refit of a context whose switch is withdrawn (R258) runs no longer: MRK_FIT_STAT shows idle (DESIGN CHOICE, log entry 76). -/
def fitWithdrawn (ctx : Nat) (d : Dev) : Dev :=
  if rdF .mrk MRK_FIT_STAT 0 6 d = ctx && (rdF .mrk MRK_FIT_STAT 8 3 d = 2 || rdF .mrk MRK_FIT_STAT 8 3 d = 5) &&
      d.jobs.any (fun j => j.ctx == ctx && j.phase == 0) then
    wrF .mrk MRK_FIT_STAT 8 3 0 d
  else d

/-- The running reset that a context reset is inner to: its own, or one that covers every core of the context (R27, R434). -/
def outerRun (ctx : Nat) (d : Dev) : Option ResetRun :=
  let outer (c : CoreRef) : Option ResetRun := d.runs.find? fun r => !isCtx r.dom && r.doms.any (domCore · c)
  match d.runs.find? fun r => decide (r.dom = .context ctx) with
  | some r => some r
  | none => if (ctxCores ctx d).all fun c => (outer c).isSome then (ctxCores ctx d).findSome? outer else none

/-- CONTEXT_RESET (R436); one inner to a running reset is discarded and counted in its record. -/
def contextReset (ctx cause : Nat) (d : Dev) : Dev :=
  if 64 ≤ ctx then d
  else match outerRun ctx d with
  | some r => countDiscard r d
  | none =>
    let d := modBound ctx (fun j => { j with trig := jobTriggers j d }) d
    let d := vfVector ctx 0 (fitWithdrawn ctx (withdrawCtx ctx (setFramed ctx false d)))
    beginRun (.context ctx) ((ctxCores ctx d).map .core) 0 ctx cause .rst d

/-- Contexts with PRS_CTL.ENABLE set. -/
def pressContexts (d : Dev) : List Nat := (List.range 64).filter fun x => bit (prsR x PRS_CTL d) 0

def coreResetAct (c : CoreRef) (cause : Nat) (d : Dev) : Dev :=
  if coreOk c && !slotAbsent c d then beginRun (.core c) [.core c] 2 (blkInstance (.cor c)) cause (.rstd c.die) d else d

def clusterResetAct (dd cc cause : Nat) (d : Dev) : Dev :=
  if dd < 4 && cc < 8 then beginRun (.cluster dd cc) [.cluster dd cc] 3 (blkInstance (.clu dd cc)) cause (.rstd dd) d else d

/-- DIE_RESET (R25, R439): contexts with a core on the die, and those whose Presses are enabled, are stopped first. -/
def dieResetAct (k cause : Nat) (d : Dev) : Dev :=
  if k < 4 then
    let xs := (List.range 64).filter fun x => (ctxCores x d).any (fun c => c.die == k) || (pressContexts d).contains x
    let d := if d.runs.any (fun r => decide (r.dom = .die k)) then d else xs.foldl (fun d x => contextReset x 3 d) d
    beginRun (.die k) [.die k] 4 (blkInstance (.die k)) cause (.rstd k) d
  else d

/-- ENGINE_RESET (R438): of a core unit it is the core's reset; of PRS and SNP it resets every context whose Presses are enabled. -/
def engineResetAct (b : Blk) (cause : Nat) (d : Dev) : Dev :=
  if !blkOk b then d
  else match blkCore b with
    | some c => coreResetAct c cause d
    | none => match b with
      | .glb | .die _ | .clu _ _ => d
      | _ =>
        let d := match b with
          | .prs _ | .snp _ => (pressContexts d).foldl (fun d x => contextReset x cause d) d
          | _ => d
        beginRun (.engine b) [.engine b] 1 (blkInstance b) cause (rstOf b) d

/-- The unit watchdog of a block does not count: the block is disabled, fenced or in its safe state, or a packet of its port waits for routing tables to
switch (R283, R438). Freezing by THROTTLE is an operand of ARRAY_CYCLE and leaves no state. -/
def watchdogHeld (b : Blk) (d : Dev) : Bool :=
  !rdBit b R_CTRL 0 d || fenced b d || isSafe b d || (d.net.holding.isSome && d.net.hold.any fun m => m.at_ == blkPos mgmtPos b d)

/-- UNIT_WATCHDOG (R438): a unit that has moved nothing for RST_CFG.UNIT_MS gets an engine reset. -/
def unitWatchdog (b : Blk) (d : Dev) : Dev := if watchdogHeld b d then d else engineResetAct b 2 d

/-- What CTRL.RESET_REQ of a block asks for (R47). -/
def resetAct (b : Blk) (d : Dev) : Dev :=
  if isSafe (rstOf b) d then d
  else match b with
    | .glb => d
    | .die k => dieResetAct k 0 d
    | .clu dd cc => clusterResetAct dd cc 0 d
    | .cor c => coreResetAct c 0 d
    | _ => engineResetAct b 0 d

/-- DRAIN_LIMIT_EXPIRY (R433): what is outstanding is abandoned, and its responses find no request. -/
def drainExpired (m : Dom) (d : Dev) : Dev :=
  match d.runs.find? fun r => decide (r.dom = m) && !r.done with
  | some r => performRun r true d
  | none => d

/-! ### Leaving a reset (R435, R444) -/

/-- The array takes its repair table as the core leaves reset (R99, R100, R108). -/
def applyRepairTable (c : CoreRef) (d : Dev) : Dev :=
  let b : Blk := .arr c
  let vals (o : Nat) : List Nat := (List.range 4).map fun i => rd b (o + 4 * i) d
  let valid (o : Nat) : List Nat := ((vals o).filter (bit · 15)).map (bits · 0 8)
  let rows := ((valid ARR_REPAIR_ROW0).filter (· < 132)).eraseDups
  let cols := ((valid ARR_REPAIR_COL0).filter (· < 132)).eraseDups
  let bad := (valid ARR_REPAIR_ROW0 ++ valid ARR_REPAIR_COL0).any fun p => decide (131 < p)
  let d := modCore c (fun x => { x with arr := { x.arr with exRows := rows, exCols := cols, badEntry := bad } }) d
  wr b ARR_REPAIR_STAT (rows.length + cols.length * 16 + 256 * b2n bad) d

/-- A core leaves reset: its table is applied, and it starts once its firmware is verified; until then it stays in reset. Of a failed core only WPERM
returns (R59). -/
def coreLeaves (c : CoreRef) (found : List Nat) (d : Dev) : Dev :=
  if slotAbsent c d then d
  else if !coreAlive c d then (coreBlks c).foldl (fun d b => wpermBack b d) d
  else
    let d := if isMatrix c then applyRepairTable c d else d
    coreStart c found { d with resets := d.resets ++ (if d.resets.contains (.core c) then [] else [.core c]) }

/-- A slot newly powered takes its image from the reserve, chunk by chunk, and starts where IMAGE matches (R10, R443). -/
def coreFill (c : CoreRef) (d : Dev) : Dev :=
  let ty := coreTy c
  let d := (List.range (fwChunks ty d)).foldl (fun d k =>
    fwPut c (4096 * k) (memBytes (keyNear (imageAt ty + 4096 * k)) (chunkLen ty k d) d) (bumpSat .rst RST_FW 0 16 d)) d
  let d := if isMatrix c then applyRepairTable c d else d
  if imageOk c d then coreUp c d else fwFail c 0 d

/-- Substitution in service (R10): the spare slot that takes a failed one's place is powered and started. -/
def substituteLive (dd cc : Nat) (d : Dev) : Dev :=
  let e := substitute dd cc d
  ((List.range 9).filter fun s => slotState ⟨dd, cc, s⟩ e == 2 && slotState ⟨dd, cc, s⟩ d != 2).foldl (fun e s => coreFill ⟨dd, cc, s⟩ e) e

def domLeaves (found : List (CoreRef × Nat)) (m : Dom) (d : Dev) : Dev :=
  let d := { d with resets := d.resets.filter fun x => !decide (x = m) }
  let cores := (domCores m).filter fun c => !d.resets.any fun x => domCore x c
  let other := (domBlks m).filter fun b => (blkCore b).isNone && !inReset b d
  let d := other.foldl (fun d b => blkUp b d) d
  let d := cores.foldl (fun d c => coreLeaves c ((found.filter fun f => decide (f.1 = c)).map (·.2)) d) d
  match m with
  | .die k =>
    let d := (List.range 8).foldl (fun d i => startTraining (8 * k + i) d) (retable none d)
    if k = 0 then hostFlush d else d
  | .engine (.str dd cc i) => strPump dd cc i d
  | .engine (.prs _) => pressResume (pumpHeld d)
  | _ => d

/-- RESET_EXIT (R435, R444): the domain of a reset that has been performed leaves it; `found` are chunks of firmware stores that the check
finds failing. After a context reset a refit may be due (R437). -/
def resetExitAct (m : Dom) (found : List (CoreRef × Nat)) (d : Dev) : Dev :=
  match d.runs.find? fun r => decide (r.dom = m) && r.done with
  | some r =>
    let d := endRun r d
    let d := r.doms.foldl (fun d x => domLeaves found x d) d
    let d := setEvent r.rst 8 (freeNext (wrB r.rst RST_REC_US r.entry (freeNow d % 2 ^ 32) d))
    match m with
    | .context x => modBound x (fun j => if j.phase = 2 && bit j.trig 0 then { j with due := true } else j) d
    | _ => d
  | none => d

/-! ### Escalation (R438 to R440) -/

/-- CONTEXT_RESET_TIMEOUT (R439): every undrained unit gets an engine reset (DEDUCED, log entry 102). -/
def ctxResetTimeout (ctx : Nat) (d : Dev) : Dev :=
  match d.runs.find? fun r => decide (r.dom = .context ctx) with
  | some r =>
    let d := setEvent .rst 9 d
    let waits (m : Dom) : Bool := (d.net.reqs.any fun q => byDom m q.by_ d) || grantOpen m d
    (r.doms.filter waits).foldl (fun d m => match m with | .core c => coreResetAct c 3 d | _ => d) d
  | none => d

/-- ENGINE_RESET_TIMEOUT (R439): the die takes over. A chip-level unit has no die above it. -/
def engResetTimeout (b : Blk) (d : Dev) : Dev :=
  let run := d.runs.any fun r => decide (r.dom = .engine b) || (match blkCore b with | some c => decide (r.dom = .core c) | none => false)
  match blkDie b with
  | some k => if run then dieResetAct k 3 (setEvent (.rstd k) 9 d) else d
  | none => d

/-- DIE_RESET_TIMEOUT (R439): firmware asks the tray controller for a reset. -/
def dieTimeout (k : Nat) (d : Dev) : Dev :=
  if d.runs.any (fun r => decide (r.dom = .die k)) then wrBit .rst RST_HB 16 true (setEvent (.rstd k) 9 d) else d

/-! ### The commands -/

/-- RESET_REQ: what the write asks for is in Machine/Access.lean; the resets are these. CONTEXT_RESET (R436). -/
def execContextReset (ctx cause : Nat) (s : State) := s.onDev (contextReset ctx cause)
/-- CORE_RESET (R433). -/
def execCoreReset (c : CoreRef) (cause : Nat) (s : State) := s.onDev (coreResetAct c cause)
/-- CLUSTER_RESET (R433). -/
def execClusterReset (d c cause : Nat) (s : State) := s.onDev (clusterResetAct d c cause)
/-- DIE_RESET (R25). -/
def execDieReset (d cause : Nat) (s : State) := s.onDev (dieResetAct d cause)
/-- ENGINE_RESET (R438). -/
def execEngineReset (b : Blk) (cause : Nat) (s : State) := s.onDev (engineResetAct b cause)
/-- DRAIN_LIMIT_EXPIRY (R433). -/
def execDrainLimitExpiry (dom : Dom) (s : State) := s.onDev (drainExpired dom)
/-- RESET_EXIT (R435). -/
def execResetExit (dom : Dom) (flaws : List (CoreRef × Nat)) (s : State) := s.onDev (resetExitAct dom flaws)
/-- UNIT_WATCHDOG (R438). -/
def execUnitWatchdog (b : Blk) (s : State) := s.onDev (unitWatchdog b)
/-- CONTEXT_RESET_TIMEOUT (R439). -/
def execContextResetTimeout (ctx : Nat) (s : State) := s.onDev (ctxResetTimeout ctx)
/-- ENGINE_RESET_TIMEOUT (R439). -/
def execEngineResetTimeout (b : Blk) (s : State) := s.onDev (engResetTimeout b)
/-- FABRIC_TIMEOUT (R439). -/
def execFabricTimeout (d : Nat) (s : State) := s.onDev fun x => dieResetAct d 4 (setEvent (.rstd d) 9 x)
/-- DIE_RESET_TIMEOUT (R439). -/
def execDieResetTimeout (d : Nat) (s : State) := s.onDev (dieTimeout d)

end Sys2Proof.Machine
end

