-- ==== Sys2Proof/Machine/Wear.lean ====
section
/-! DEFINITION. Clock bins, voltage guard and the bin cap as fittings and the wear monitors change them (R17, R35, R458, R461 to R463, R466). -/

namespace Sys2Proof.Machine

/-- A write of the Marker over the register bus, logged with its origin (R216, R484). -/
def markWrite (ctx key v : Nat) (d : Dev) : Dev :=
  wrKey key v (appendLog { cls := 7, id := ctx, addr := key % bankStep, old := rdKey d key, new := v % 2 ^ 32 } d)

/-- PENDING and PENDING_MHZ of GLB_CLK_COMMIT: the lowest bin pending among the clusters with bound work (R17, R35, R216). -/
def syncPending (ctx : Nat) (d : Dev) : Dev :=
  let busy := busyClusters 64 d
  let low := (busy.map fun p => clusterBin true p d).foldl min 1900
  let now := (busy.map fun p => clusterBin false p d).foldl min 1900
  let v := rd .glb GLB_CLK_COMMIT d
  let w := if low < now then putBits (putBits v 31 1 1) 16 12 low else putBits (putBits v 31 1 0) 16 12 0
  if v = w then d else markWrite ctx (regKey .glb GLB_CLK_COMMIT) w d

/-! ### Ageing records (R466) -/

/-- The ageing region holds this many records (R31). -/
def ageRing : Nat := 131072

def addAge (kind unit value : Nat) (data : List Nat) (d : Dev) : Dev :=
  { d with flash := { d.flash with
      ages := ({ kind := kind, unit := unit, value := value, num := stitchNum d, data := data } :: d.flash.ages).take ageRing } }

/-- Fields of AGE_CLU of a cluster (R468). -/
def ageClu (p : Nat) (d : Dev) : Nat := rdB .age AGE_CLU p d
def ageBin (p : Nat) (d : Dev) : Nat := bits (ageClu p d) 0 12
def ageGuard (p : Nat) (d : Dev) : Nat := bits (ageClu p d) 12 4
def ageStretch (p : Nat) (d : Dev) : Nat := bits (ageClu p d) 16 3
def agePendGuard (p : Nat) (d : Dev) : Nat := bits (ageClu p d) 19 4
def agePendBin (p : Nat) (d : Dev) : Bool := bit (ageClu p d) 23
def setAgeF (p lo len v : Nat) (d : Dev) : Dev := wrB .age AGE_CLU p (putBits (ageClu p d) lo len v) d

/-- What is pending for a cluster applies: guard steps, and a lower bin with `bin`; stretch returns to 0 (R461). Each change is recorded. -/
def applyWear (bin : Bool) (p : Nat) (d : Dev) : Dev :=
  let g := agePendGuard p d
  let lower := bin && agePendBin p d
  let d := if g = 0 then d else
    let n := min 12 (ageGuard p d + g)
    addAge 1 p n [] (setAgeF p 19 4 0 (setAgeF p 12 4 n d))
  let d := if lower then
    let n := max 1500 (ageBin p d - 25)
    addAge 2 p n [] (setAgeF p 23 1 0 (setAgeF p 0 12 n d))
    else d
  let d := if g ≠ 0 || lower then setAgeF p 16 3 0 d else d
  { d with age := { d.age with stretched := d.age.stretched.filter (· != p) } }

/-! ### The cap on bins (R458) -/

/-- The highest bin at which the need of the bound clusters fits the cap. -/
def binFor (d : Dev) : Nat := (binList.reverse.find? fun f => needFits (busyClusters 64 d).length f d).getD 1500

/-- A pending cap takes effect with the refit of a fitting epoch. -/
def takeCap (d : Dev) : Dev :=
  let v := rd .pwr PWR_BINCAP d
  if bit v 31 then wr .pwr PWR_BINCAP (bits v 16 12) d else d

/-- A lower cap becomes pending, never below 1,500 MHz. -/
def lowerCap (f : Nat) (d : Dev) : Dev :=
  let v := rd .pwr PWR_BINCAP d
  let f := max 1500 f
  let d := { d with tape := { d.tape with lowCap := capNow d } }
  if f < bits v 0 12 then syncPending 0 (wr .pwr PWR_BINCAP (bits v 0 12 + f * 65536 + 2 ^ 31) d) else d

/-- A cap that has risen since lets the cap on bins rise at a refit. -/
def raiseCap (d : Dev) : Dev :=
  let v := rd .pwr PWR_BINCAP d
  if bit v 31 || decide (capNow d ≤ d.tape.lowCap) then d
  else wr .pwr PWR_BINCAP (max (bits v 0 12) (binFor d)) d

end Sys2Proof.Machine
end

