-- ==== Sys2Proof/Machine/Fit.lean ====
section
/-! DEFINITION. Fitting, unbinding and refitting (R252 to R258, R267 to R270, R273, R503). -/

namespace Sys2Proof.Machine

/-! ### The Marker's own writes -/

/-- The grants of a context (R503): its first eight buffers in ascending number. -/
def putGrants (ctx : Nat) (bufs : List BufPlace) (d : Dev) : Dev :=
  let bs := (sortLe (fun (a b : BufPlace) => decide (a.n ≤ b.n)) bufs).take 8
  (List.range 8).foldl (fun d e =>
    let k (o : Nat) : Nat := bankKey .pci o (ctx + 64 * e)
    match bs[e]? with
    | some b =>
      markWrite ctx (k PCI_GRANT) (b.space + 2 ^ 31)
        (markWrite ctx (k PCI_GRANT_LEN) (ceilDiv b.size 4096) (markWrite ctx (k PCI_GRANT_BASE) (b.off / 4096) d))
    | none => if rdKey d (k PCI_GRANT) = 0 then d else markWrite ctx (k PCI_GRANT) 0 d) d

/-- MRK_FIT_STAT (R273). -/
def fitStat (ctx st cause : Nat) (d : Dev) : Dev := wr .mrk MRK_FIT_STAT (ctx % 64 + st * 256 + cause * 65536) d

/-- A fitting or refit has ended (R273, R504). -/
def fitDone (ctx : Nat) (d : Dev) : Dev := vfVector ctx 1 (setEvent .mrk 8 d)

/-- MRK_FIT_DETAIL takes the failing item of a cause as `causeOf` has it. Where the cause names none, what ITEM holds is free
(DESIGN CHOICE, log entry 75). -/
def fitDetail (c : Nat) (d : Dev) : Dev :=
  if c < 16 then freeNext (wr .mrk MRK_FIT_DETAIL (freeNow d) d) else wr .mrk MRK_FIT_DETAIL (c / 16 - 1) d

/-- FIT_ERROR with its cause and item (R253, R270, R274). -/
def fitError (ctx st c : Nat) (d : Dev) : Dev :=
  fitDone ctx (fitStat ctx st (c % 16) (latchWith .mrk cFitError (fitDetail c) d))

/-! ### Step 7 (R253, R256 to R258) -/

/-- A flow context as bound (R256, R329). One that the context held for the same flow keeps its counts. -/
def bindFlow (ctx kind pkts w4k dev peer phys : Nat) (keep : Bool) (link : Option Nat) (d : Dev) : Dev :=
  let d := if keep then d else freeFlow phys d
  let q := bits (rdB .fab FAB_FLOW phys d) 7 1
  let d := wrB .fab FAB_FLOW phys (ctx + 64 + q * 128 + kind * 256 + pkts * 65536 + w4k * 2 ^ 24) d
  let d := wrB .fab FAB_FLOW_PEER phys (dev % 32768 + peer % 16384 * 65536) d
  modFlow phys (fun x => { x with cls := flowClass phys d, link := link }) d

/-- The flow contexts of a plan. -/
def bindFlows (ctx : Nat) (p : Pattern) (x : FitPlan) (d : Dev) : Dev :=
  let old := d.net.binds
  let news := p.flows.filterMap fun f => ((x.flows.find? fun e => e.1 == f.n).map fun e => (f, e.2))
  let mine := old.filter fun b => b.ctx == ctx
  let gone := mine.filter fun b => !news.any fun n => n.1.n == b.n && n.2 == b.phys
  let d := gone.foldl (fun d b => freeFlow b.phys (failFlow b.phys d)) d
  let d := { d with net := { d.net with binds := d.net.binds.filter fun b => b.ctx != ctx } }
  let d := news.foldl (fun d n =>
    let f := n.1
    let keep := mine.any fun b => b.n == f.n && b.phys == n.2
    let dev := if f.srcDev = ownDev d then f.dstDev else f.srcDev
    let d := bindFlow ctx f.kind f.winPkts f.win4k dev f.peerFlow n.2 keep ((x.links.find? fun l => l.1 == f.n).map (·.2)) d
    { d with net := { d.net with binds := d.net.binds ++ [{ ctx := ctx, n := f.n, phys := n.2, srcTy := f.srcTy, srcCore := f.srcCore,
                                                            srcDev := f.srcDev, dstTy := f.dstTy, dstCore := f.dstCore, dstDev := f.dstDev }] } }) d
  x.migFlows.foldl (fun d m => bindFlow ctx 1 64 64 (ownDev d) m m false none d) d

/-- The groups that a pattern defines (R319, R357): each member's logical flow is the flow context that fitting allocated for it; one that the
pattern does not bind is no flow context. -/
def bindGroups (ctx : Nat) (p : Pattern) (d : Dev) : Dev :=
  let d := dropGroups ctx d
  let here (m : Nat × Nat × Nat) : Nat × Nat × Nat := (m.1, m.2.1, (boundFlow ctx m.2.2 d).getD 16384)
  let gs := p.groups.map fun g => ({ ctx := ctx, n := g.n, source := g.source, members := g.members.map here } : GroupSt)
  let rs := p.reds.map fun r => ({ ctx := ctx, n := r.n, members := r.members.map here, mc := r.mc } : RedSt)
  let d := { d with net := { d.net with groups := d.net.groups ++ gs, reds := d.net.reds ++ rs } }
  ((p.groups.map (·.n)).eraseDups).foldl (fun d n => syncMc n d) d

/-- Where a buffer lies, as a global address. -/
def placeAddr (b : BufPlace) (off : Nat) (d : Dev) : Nat := gAddr (ownDev d) b.space (b.off + off)
def placeKey (b : BufPlace) (off : Nat) : Nat := if b.space = 0 then keyNear (b.off + off) else keyFar (b.off + off)

/-- What a relocation writes and its width: a global address, or a flow context of 14 bits (R257). -/
def relocVal (r : PatReloc) (flows : List (Nat × Nat)) (bufs : List BufPlace) (d : Dev) : Option (Nat × Nat) :=
  if r.isFlow then (flows.find? fun f => f.1 == r.item).map fun f => (f.2, 14)
  else (bufs.find? fun b => b.n == r.item).map fun b => (placeAddr b r.offset d % 2 ^ 64, 64)

/-- A relocation is applied; the write is refused where a version window of a context that a Press serves lies (R392). Initial values of S registers are not written to cores whose state goes on (`running`). -/
def relocate (cores flows : List (Nat × Nat)) (bufs : List BufPlace) (running : Bool) (r : PatReloc) (d : Dev) : Dev :=
  match relocVal r flows bufs d with
  | none => d
  | some (v, w) =>
    match r.loc with
    | .sreg x n =>
      match coreIn cores x.ty x.n with
      | some c => if running then d else setSreg c x.stream n v d
      | none => d
    | .word b off lo =>
      match bufs.find? fun y => y.n == b with
      | some y =>
        let k := placeKey y off
        if windowHit k 8 d then d else memPutNat k 8 (putBits (memNat k 8 d) lo (min w (64 - lo)) v) d
      | none => d

/-- RESTORE_ARM of a context (R406). -/
def restoreArm (ctx : Nat) (d : Dev) : Bool := bit (snpR ctx SNP_CTL d) 3

/-- Streams that a pattern enables, on the cores of a binding. -/
def enabledStreams (p : Pattern) (cores : List (Nat × Nat)) : List (CoreRef × Nat) :=
  p.cores.flatMap fun c => match coreIn cores c.ty c.n with | some r => c.streams.map fun s => (r, s) | none => []

/-- MSH_TBL.ACTIVE of every router in service, to its other bank (R258, R283). -/
def tableShadow (d : Dev) : List (Nat × Nat × Nat) :=
  (rising.filter fun x => routerUp x d).map fun x => (regKey (posBlk x) MSH_TBL, 1, 1 - activeBank x d)

/-- The shadow values of a binding switch (R258, R406). Cores that the context leaves are unbound and their streams disabled. -/
def bindShadow (ctx : Nat) (p : Pattern) (x : FitPlan) (left : List CoreRef) (arm : Bool) : List (Nat × Nat × Nat) :=
  (x.cores.map fun c => (regKey (.seq (coreOfKey c.2)) SEQ_CTX, 2 ^ 32 - 1, ctx + 2 ^ 31)) ++
  (if arm then [] else (enabledStreams p x.cores).map fun s => (regKey (.seq s.1) (sOff s.2 S_CTL), 1, 1)) ++
  (left.flatMap fun c => (regKey (.seq c) SEQ_CTX, 2 ^ 32 - 1, 0) :: (List.range (nStreams c)).map fun n => (regKey (.seq c) (sOff n S_CTL), 1, 0)) ++
  [(regKey .tck (TCK_FRAME_EN_LO + ctx / 32 * 4), 2 ^ (ctx % 32), if p.framed then 2 ^ (ctx % 32) else 0),
   (bankKey .tck TCK_SEG ctx, 0xFFFF, p.planned), (regKey .tck TCK_SEAM, 0xF, p.lead), (regKey .glb GLB_CLK_COMMIT, 0xFFF, x.clk)]

/-- Step 7: relocations, flow contexts, groups, grants, and the binding switch armed for the second Stitch after (R253, R258); new routing tables
that wait for a switch take part in it (R283). The triggers that a fitting epoch serves stay pending where this is none (R267). None where TCK
takes no entry. `running`: the refit of a context whose cores go on from their seam (DEDUCED, log entry 77). -/
def commitFit (a : FitArgs) (x : FitPlan) (j : JobSt) (left : List CoreRef) (running : Bool) (d : Dev) : Option Dev :=
  let p := a.pat
  let sh := bindShadow a.ctx p x left (!running && restoreArm a.ctx d) ++ (if d.net.tablesWait then tableShadow d else [])
  (armCtx { n := stitchNum d + 2, org := { cls := 7, id := a.ctx }, ctx := some a.ctx, shadow := sh, after := .bind a.ctx } d).map fun d =>
    let d := { d with net := { d.net with tablesWait := false } }
    let d := bindFlows a.ctx p x d
    let d := bindGroups a.ctx p d
    let d := p.relocs.foldl (fun d r => relocate x.cores x.flows x.bufs running r d) d
    let d := putGrants a.ctx x.bufs d
    let persist := p.cores.flatMap fun c =>
      match coreIn x.cores c.ty c.n with | some r => c.persist.map fun q => (coreKey r, q.1, q.2) | none => []
    putJob { j with pat := p, phase := 0, cores := x.cores, clus := x.asg, flows := x.flows, migFlows := x.migFlows, bufs := x.bufs,
                    loads := x.loads, persist := persist, epoch := a.epoch, trig := if a.epoch then 0 else j.trig / 4 * 4, unbind := false } d

/-! ### FIT (R252) and fitting (R253) -/

/-- The action of MRK_CTL.FIT: the request waits with the pattern's address; a second one for a context is ignored, and
`fitAgain` has it logged as denied. -/
def fitPending (ctx : Nat) (d : Dev) : Bool := d.fits.any fun f => f.1 == ctx
def fitAct (ctx : Nat) (d : Dev) : Dev :=
  if fitPending ctx d then d else { d with fits := d.fits ++ [(ctx, rd64 .mrk MRK_SUBMIT_LO d)] }

/-- The Marker serves requests. -/
def markerRuns (d : Dev) : Bool := !idle .mrk d && !inReset .mrk d

/-- The refit that is due, the lowest context first (R252, R275) (DEDUCED, log entry 80). -/
def refitDue (d : Dev) : Option Nat := (d.jobs.find? fun j => j.due && (j.phase == 1 || j.phase == 2)).map (·.ctx)

/-- The address of a pattern: this device, space 000 or 001, on 4 KiB (R251). -/
def patAddrOk (a : Nat) (d : Dev) : Bool := gDev a == ownDev d && decide (gSpace a < 2) && a % 4096 == 0

/-- The device has failed (R431). -/
def devFailed (d : Dev) : Bool := rdF .rst RST_BOOT 0 4 d == 8

/-- What a fitting of a context that is not bound works with: the space that a stopped context holds is tried first (R436). -/
def fitArgs (ctx : Nat) (p : Pattern) (d : Dev) : FitArgs :=
  { ctx := ctx, pat := p, epoch := false, kept := [], held := match jobAt ctx d with | some j => j.bufs | none => [] }

/-- A fitting or refit is being served: its switch is armed, or blocks have still to be brought level (R252, R258). -/
def serving (d : Dev) : Bool := d.jobs.any fun j => j.phase == 0

/-- FITTING: the request at the front is served with the pattern that stands at its address (R252, R253). -/
def fitting (p : Pattern) (d : Dev) : Dev :=
  match d.fits with
  | [] => d
  | (ctx, addr) :: rest =>
    if !markerRuns d || (refitDue d).isSome || serving d then d
    else
      let d := fitStat ctx 1 0 { d with fits := rest }
      if (jobAt ctx d).any holdsCores then fitError ctx 4 11 d
      else if devFailed d then fitError ctx 4 4 d
      else if !patAddrOk addr d then fitError ctx 4 1 d
      else
        let r := authObj 3 p.obj d
        let a := fitArgs ctx p r.1
        match fitChecks r.2 a r.1 with
        | .error c => fitError ctx 4 c r.1
        | .ok x =>
          match commitFit a x { ctx := ctx, pat := p } [] false (fitStat ctx 2 0 r.1) with
          | some d => d
          | none => fitError ctx 4 11 (armRefused (stitchNum r.1 + 2) r.1)

/-! ### The switches applied -/

/-- The binding of a context as its table has it. -/
def setBinds (ctx : Nat) (cores : List (Nat × Nat)) (d : Dev) : Dev :=
  cores.foldl (fun d c => { d with binds := Sparse.set noBind d.binds (ctx * 1024 + c.1) (c.2 + 1) })
    { d with binds := d.binds.filter fun p => p.1 / 1024 != ctx }

/-- The binding switch has applied in every block (R258): the context is bound; its segment starts here, or at the resume Stitch (R209,
R406), when the entry that resumes it applies. The first record is still to be made (R401), and no verdict value has been read (R370). An arrival that was withheld for the refit goes on (R268). -/
def bindApplied (ctx : Nat) (d : Dev) : Dev :=
  match jobAt ctx d with
  | some j =>
    if j.phase ≠ 0 then d
    else
      let at_ := j.due && (allArrived ctx d && !(ctxCores ctx d).isEmpty)
      let here : List Nat := (ctxCores ctx d).map (fun c => c.die * 8 + c.cl) ++ j.clus.map (·.2)
      let olds := here.filter fun p => pendCounts ctx true p d
      let d := if j.epoch then takeCap (olds.eraseDups.foldl (fun d p => applyWear true p d) d) else d
      let d := modBound ctx (fun j => { j with phase := 1, due := false, seams := if at_ then j.seams else 0 }) (setBinds ctx j.cores d)
      let d := if at_ then
          (enabledStreams j.pat j.cores).foldl (fun d s => modStream s.1 s.2 (fun x => { x with seam := true }) d) d
        else if restoreArm ctx d then modSeam ctx (fun s => { s with start := snp64 ctx SNP_RESUME_LO d }) d
        else modSeam ctx (fun s => { s with start := stitchNum d }) (wrB64 prs0 PRS_VPREV_LO ctx 0 d)
      let d := if at_ then d else modSnap ctx (fun x => { x with recorded := none }) d
      seamRelease ctx (syncPending ctx (fitDone ctx (fitStat ctx 3 0 d)))
  | none => d

/-- A context is unbound (R273): its flow contexts and its space are free, its grants cleared, and no record is its last (R401). -/
def release (ctx : Nat) (d : Dev) : Dev :=
  let fs := match jobAt ctx d with | some j => j.flows.map Prod.snd ++ j.migFlows | none => []
  let d := fs.foldl (fun d f => freeFlow f (failFlow f d)) d
  let d := setSeam ctx {} (dropGroups ctx { d with binds := d.binds.filter fun p => p.1 / 1024 != ctx })
  modSnap ctx (fun x => { x with recorded := none }) (syncPending ctx (putGrants ctx [] (dropJob ctx d)))

def unbindApplied (ctx : Nat) (d : Dev) : Dev := if (jobAt ctx d).any (·.phase == 4) then release ctx d else d

/-- The unbinding switch: the cores' SEQ_CTX, their streams' ENABLE and the frame bit to 0. -/
def unbindShadow (ctx : Nat) (d : Dev) : List (Nat × Nat × Nat) :=
  ((ctxCores ctx d).flatMap fun c => (regKey (.seq c) SEQ_CTX, 2 ^ 32 - 1, 0) :: (List.range (nStreams c)).map fun n => (regKey (.seq c) (sOff n S_CTL), 1, 0)) ++
  [(regKey .tck (TCK_FRAME_EN_LO + ctx / 32 * 4), 2 ^ (ctx % 32), 0)]

/-- A context marked for unbinding whose switch is not armed yet: it is armed, or tried again at the next Stitch. -/
def unbindArm (ctx : Nat) (d : Dev) : Dev :=
  let there := (d.tck.armed ++ d.tck.late).any fun a => decide (a.2.after = .unbind ctx)
  if (jobAt ctx d).any (·.phase == 4) && !there then
    (armCtx { n := stitchNum d + 2, org := { cls := 7, id := ctx }, ctx := some ctx, shadow := unbindShadow ctx d, after := .unbind ctx } d).getD (armRefused (stitchNum d + 2) d)
  else d

/-- The context's next seam completes: a requested unbinding begins (R273). -/
def unbindSeam (ctx : Nat) (d : Dev) : Dev :=
  if (jobAt ctx d).any fun j => j.unbind && j.phase == 1 then
    unbindArm ctx (modBound ctx (fun j => { j with phase := 4, unbind := false }) d)
  else d

/-- The action of MRK_CTL.UNBIND (R273, R436). A context without cores has no seam to wait for (DEDUCED, log entry 133). -/
def unbindAct (ctx : Nat) (d : Dev) : Dev :=
  match jobAt ctx d with
  | some j =>
    if j.phase = 2 || j.phase = 3 then release ctx d
    else if j.phase = 1 then
      let d := modBound ctx (fun j => { j with unbind := true }) d
      if (ctxCores ctx d).isEmpty then unbindSeam ctx d else d
    else d
  | none => d

/-! ### Refits (R267 to R270) -/

/-- The action of MRK_CTL.REFIT_NOW. -/
def refitNowAct (ctx : Nat) (d : Dev) : Dev :=
  modBound ctx (fun j => if j.phase = 1 || j.phase = 4 then { j with trig := putBits j.trig 4 1 1 } else j) d

/-- A lower bin or cap is pending for a cluster where the context is bound (R267 row 3). -/
def binTrigger (j : JobSt) (d : Dev) : Bool := j.cores.any fun c => clusterBin true (c.2 / 16) d < clusterBin false (c.2 / 16) d

/-- The refits that a seam brings due as the device arrives at it (R267): a lost link, or at a fitting epoch the other triggers. -/
def refitAtSeam (ctx : Nat) (d : Dev) : Dev :=
  modBound ctx (fun j =>
    let ep := (j.seams + 1) % j.pat.epochSegs == 0
    let t := if binTrigger j d then putBits j.trig 2 1 1 else j.trig
    if j.phase = 1 && (bit t 1 || (ep && decide (0 < bits t 2 3))) then { j with due := true, epoch := ep, trig := t } else { j with trig := t }) d

/-- State of each core whose slot changes, as it stands in the old slots (R269): streams, generators, trackers, persistent ranges. -/
def copyMoved (p : Pattern) (old new : List (Nat × Nat)) (d : Dev) : Dev :=
  let moved := old.filterMap fun o => (new.find? fun n => n.1 == o.1 && n.2 != o.2).map fun n => (o.1, coreOfKey o.2, coreOfKey n.2)
  moved.foldl (fun e m =>
    let e := putCores [m.2.2] (coreBytes m.2.1 d) e
    let ps := (p.cores.filter fun c => coreNo c == m.1).flatMap (·.persist)
    ps.foldl (fun e q => memWrite (keyLoc m.2.2 q.1) (memBytes (keyLoc m.2.1 q.1) q.2 d) (poisonBytes (keyLoc m.2.1 q.1) q.2 d) e) e) d

/-- Buffers that a refit places in another space are copied there during the hold, poison with them (R269). -/
def copyBufs (old new : List BufPlace) (d : Dev) : Dev :=
  new.foldl (fun e b => match old.find? fun o => o.n == b.n with
    | some o => if o.space = b.space then e
        else memWrite (placeKey b 0) (memBytes (placeKey o 0) b.size d) (poisonBytes (placeKey o 0) b.size d) (readEffects (placeKey o 0) b.size e)
    | none => e) d

/-- A refit fails (R270): the context stays unbound; one that is still bound stops at the next Stitch. -/
def refitFails (ctx c : Nat) (d : Dev) : Dev :=
  let was := (jobAt ctx d).any (·.phase == 1)
  let d := modBound ctx (fun j => { j with phase := 3, due := false }) (fitError ctx 6 c d)
  if was then modTck (fun t => { t with stops := t.stops ++ [(ctx, 6)] }) d else d

/-- REFIT: of a bound context at its seam, or the first fitting of a context that a fault has stopped (R267 to R270, R437). Spare slots take
the place of failed ones first (R10). -/
def refit (ctx : Nat) (d : Dev) : Dev :=
  match refitDue d, jobAt ctx d with
  | some first, some j =>
    if first ≠ ctx || !markerRuns d || serving d then d
    else
      let d := raiseCap ((List.range 32).foldl (fun d q => substituteLive (q / 8) (q % 8) d) d)
      let d := fitStat ctx 5 0 d
      let running := j.phase == 1
      let a : FitArgs := { ctx := ctx, pat := j.pat, epoch := running && j.epoch, kept := if running then j.bufs else [], held := j.bufs }
      if devFailed d then refitFails ctx 4 d
      else match fitChecks 0 a d with
      | .error c => refitFails ctx c d
      | .ok x =>
        let olds := if running then j.cores else []
        let left := ((olds.filter fun o => !x.cores.any fun n => n.2 == o.2).map fun o => coreOfKey o.2)
        match commitFit a x { j with due := running } left running
            (if running then copyBufs j.bufs x.bufs (copyMoved j.pat olds x.cores d) else d) with
        | some d => d
        | none => refitFails ctx 11 (armRefused (stitchNum d + 2) d)
  | _, _ => d

/-! ### The commands -/

/-- FITTING (R253). -/
def execFitting (pat : Pattern) (s : State) := s.onDev (fitting pat)
/-- REFIT (R267). -/
def execRefit (ctx : Nat) (s : State) := s.onDev (refit ctx)

end Sys2Proof.Machine
end

