-- ==== Sys2Proof/Machine/Shift.lean ====
section
/-! DEFINITION. What the Marker does for bound contexts: migration slots, balancing moves, token assignments and wait pairs (R263, R265, R266,
R272). -/

namespace Sys2Proof.Machine

def bufOf (j : JobSt) (n : Nat) : Option BufPlace := j.bufs.find? fun b => b.n == n

/-- Bytes copied from one place of a memory to another, poison with them. -/
def copyMem (src dst n : Nat) (d : Dev) : Dev :=
  let d := readEffects src n d
  memWrite dst (memBytes src n d) (poisonBytes src n d) d

/-! ### Migration (R263) -/

/-- The slot `k` of a bound job and the buffer it is to move now: the slot's segment is in progress and the buffer lies in the other space. -/
def migDue (ctx k : Nat) (d : Dev) : Option (JobSt × PatMig × BufPlace) :=
  match jobAt ctx d with
  | some j =>
    if j.phase ≠ 1 then none
    else match j.pat.migs[k]? with
      | some m =>
        match bufOf j m.buffer with
        | some b => if j.seams % j.pat.epochSegs = m.segment && (b.space == 1) == m.toNear then some (j, m, b) else none
        | none => none
      | none => none
  | none => none

/-- The place a migrating buffer goes to. -/
def migPlace (j : JobSt) (m : PatMig) (b : BufPlace) (d : Dev) : Option Nat :=
  let sp := if m.toNear then 0 else 1
  let busy := takenSpace j.ctx sp d ++ (j.bufs.filter fun x => x.space == sp).map fun x => (x.off, x.off + x.size)
  let home := ((j.pat.buffers.find? fun x => x.n == b.n).map fun x => homeDie j.cores x).getD 0
  if m.toNear then placeNear [] busy home b.size else allocIn [] busy 0 (farSize d) b.size

/-- MIGRATION_ABORT: the slot has ended before the move, and the buffer stays (R263). -/
def migAbort (ctx k : Nat) (d : Dev) : Dev := if (migDue ctx k d).isSome then bump .mrk MRK_MIG_ABORT 1 d else d

/-- MIGRATION: the buffer moves, and every location that names it is rewritten. A buffer that fits nowhere does not move
(DEDUCED, log entry 78). -/
def migrate (ctx k : Nat) (d : Dev) : Dev :=
  if !markerRuns d then d
  else match migDue ctx k d with
    | some (j, m, b) =>
      match migPlace j m b d with
      | some off =>
        let b' : BufPlace := { b with space := if m.toNear then 0 else 1, off := off }
        let d := bump64 .mrk MRK_MIG_LO b.size (copyMem (placeKey b 0) (placeKey b' 0) b.size d)
        let bufs := j.bufs.map fun x => if x.n = b.n then b' else x
        let d := modBound ctx (fun j => { j with bufs := bufs }) d
        (j.pat.relocs.filter fun r => !r.isFlow && r.item == b.n).foldl (fun d r => relocate j.cores j.flows bufs false r d) d
      | none => d
    | none => d

/-! ### Balancing (R265) -/

/-- A block list as it stands: the next entry and the end, and the key of its entries (DESIGN CHOICE, log entry 132). -/
def listAt (j : JobSt) (n : Nat) (d : Dev) : Option (Nat × Nat × Nat) :=
  (bufOf j n).map fun b => let k := placeKey b 0; (memNat k 4 d, memNat (k + 4) 4 d, k)

/-- The core whose remaining count is best by `le`; the lowest logical number wins a tie. -/
def pickList (le : Nat → Nat → Bool) (l : List (Nat × Nat × Nat × Nat × Nat)) : Option (Nat × Nat × Nat × Nat × Nat) :=
  l.foldl (fun m x => match m with
    | some y => if le x.2.1 y.2.1 && (x.2.1 != y.2.1 || decide (x.1 < y.1)) then some x else m
    | none => some x) none

/-- One move of a group: the last block of the core with the most goes to the one with the fewest. -/
def balanceGroup (j : JobSt) (g : PatBalance) (d : Dev) : Dev :=
  let ls := (g.cores.zip g.lists).filterMap fun c => (listAt j c.2 d).map fun t => (c.1, t.2.1 - t.1, t.1, t.2.1, t.2.2)
  match pickList (fun a b => decide (b ≤ a)) ls, pickList (fun a b => decide (a ≤ b)) ls with
  | some (_, most, _, e1, k1), some (_, least, _, e2, k2) =>
    if most < least + 2 then d
    else
      let v := memNat (k1 + 8 + 4 * (e1 - 1)) 4 d
      let d := memPutNat (k1 + 4) 4 (e1 - 1) (memPutNat (k2 + 8 + 4 * e2) 4 v d)
      bump64 .mrk MRK_BAL_LO 1 (memPutNat (k2 + 4) 4 (e2 + 1) d)
  | _, _ => d

/-- The balancing moves of a Stitch. -/
def balance (d : Dev) : Dev :=
  if !rdBit .mrk MRK_CFG 16 d || !markerRuns d then d
  else (d.jobs.filter fun j => j.phase == 1).foldl (fun d j => j.pat.balance.foldl (fun d g => balanceGroup j g d) d) d

/-! ### Token assignment (R266) -/

/-- The first block, the number of blocks and the extra frames of rank `r` among `sg` devices (R266). -/
def assignment (ns : List Nat) (sg p fblk r : Nat) : Nat × Nat × Nat :=
  let t := (ns.map fun n => ceilDiv n 4096).sum
  (r * t / sg, (r + 1) * t / sg - r * t / sg, (ceilDiv t sg - p) * fblk)

/-- The assignment is computed and written as the device arrives at the seam. -/
def assignTokens (ctx : Nat) (d : Dev) : Dev :=
  match jobAt ctx d with
  | some j =>
    if j.phase ≠ 1 then d
    else match j.pat.assign with
      | some a =>
        match bufOf j a.counts, bufOf j a.dest with
        | some c, some o =>
          let d := readEffects (placeKey c 0) (8 * j.pat.sg) d
          let ns := (List.range j.pat.sg).map fun i => memNat (placeKey c (8 * i)) 8 d
          let x := assignment ns j.pat.sg j.pat.p j.pat.fblk a.rank
          let k := placeKey o 0
          memPutNat k 8 x.1 (memPutNat (k + 8) 8 x.2.1 (memPutNat (k + 16) 8 x.2.2 d))
        | _, _ => d
      | none => d
  | none => d

/-! ### Wait pairs (R272) -/

/-- Streams of a context that have timed out at a wait, in the order of R205: core, stream, flag. -/
def timedOut (ctx : Nat) (d : Dev) : List (CoreRef × Nat × Nat) :=
  (ctxCores ctx d).flatMap fun c => (List.range (nStreams c)).filterMap fun n =>
    if streamOn c n d && stopped c n d && stopCause c n d == 3 then ((getStream c n d).wait).map fun w => (c, n, w.flag) else none

/-- A stream as patterns name it. -/
def streamName (c : CoreRef) (n : Nat) (d : Dev) : Nat × Nat × Nat := (coreTy c, (logicalOf c d).getD 0, n)

/-- The members that count for the wait a stream stands at: the word at HEAD, by its place in the ring (DEDUCED, log entry 79). -/
def waitMembers (p : Pattern) (c : CoreRef) (n : Nat) (d : Dev) : List CountMember :=
  let size := ringBytes c n d
  match p.waits.find? fun w => (w.word.ty, w.word.n, w.word.stream) == streamName c n d && w.word.pos % size == sHead c n d % size with
  | some w => w.members
  | none => []

/-- The timed-out stream of this device that a member of a count set is. -/
def waitNamed (ts : List (CoreRef × Nat × Nat)) (m : CountMember) (d : Dev) : Option (CoreRef × Nat × Nat) :=
  ts.find? fun u => streamName u.1 u.2.1 d == (m.word.ty, m.word.n, m.word.stream)

/-- The timed-out streams of this device that a stream's count set names, in its order. -/
def waitNext (p : Pattern) (ts : List (CoreRef × Nat × Nat)) (t : CoreRef × Nat × Nat) (d : Dev) : List (CoreRef × Nat × Nat) :=
  (waitMembers p t.1 t.2.1 d).filterMap fun m => if m.device.any (· != ownDev d) then none else waitNamed ts m d

/-- The number of edges from any of `front` to `goal`, if there is a path. -/
def waitDist (p : Pattern) (ts : List (CoreRef × Nat × Nat)) (goal : CoreRef × Nat × Nat) (d : Dev) : Nat → Nat → List (CoreRef × Nat × Nat) → Option Nat
  | 0, _, _ => none
  | fuel + 1, k, front =>
    if front.contains goal then some k
    else waitDist p ts goal d fuel (k + 1) ((front.flatMap fun u => waitNext p ts u d).eraseDups)

/-- MRK_PAIR is written, as R109 has it, and EVENT.WAIT_PAIR set. -/
def putPair (ctx len fa fb dev : Nat) (a b : Nat × Nat × Nat) (isLocal : Bool) (d : Dev) : Dev :=
  let name (x : Nat × Nat × Nat) : Nat := x.1 * 64 + x.2.1 % 256 * 256 + x.2.2 * 65536
  let d := if faultValid .mrk d then d else
    wr .mrk MRK_PAIR_A (ctx + name a + min 15 len * 2 ^ 20) (wr .mrk MRK_PAIR_A_FLAG fa
      (wr .mrk MRK_PAIR_B (name b + b2n isLocal * 2 ^ 20) (wr .mrk MRK_PAIR_B_FLAG (fb + dev % 32768 * 32768) d)))
  setEvent .mrk 9 d

/-- The wait pair of a context at a Stitch at which two or more of its streams have latched FLAG_WAIT_TIMEOUT: the first stream, in the order of
R205, whose count set names a member that waits for it, and that member. Whether a member on another device has timed out on a flag that counts
the stream, and on which, this device does not see: free values. -/
def waitPair (ctx : Nat) (d : Dev) : Dev :=
  let ts := timedOut ctx d
  let fresh := ts.filter fun t => (getStream t.1 t.2.1 d).timedOut
  let d' := ts.foldl (fun d t => modStream t.1 t.2.1 (fun x => { x with timedOut := false }) d) d
  match jobAt ctx d with
  | some j =>
    if fresh.length < 2 then d'
    else
      let cands := (ts.flatMap fun a => (waitMembers j.pat a.1 a.2.1 d).map fun m => (a, m)).zipIdx
      let found := cands.findSome? fun x =>
        let (a, m) := x.1
        if m.device.any (· != ownDev d) then
          (if freeAt (2 * x.2) d % 2 = 1 then some (a, Sum.inr (m, freeAt (2 * x.2 + 1) d % 16384)) else none)
        else (waitNamed ts m d).bind fun b => (waitDist j.pat ts a d (ts.length + 1) 1 [b]).map fun k => (a, Sum.inl (b, k))
      let d := freeSkip (2 * cands.length) d'
      match found with
      | some (a, .inl (b, k)) => putPair ctx k a.2.2 b.2.2 (ownDev d) (streamName a.1 a.2.1 d) (streamName b.1 b.2.1 d) true d
      | some (a, .inr (m, f)) =>
        putPair ctx 2 a.2.2 f (m.device.getD 0) (streamName a.1 a.2.1 d) (m.word.ty, m.word.n, m.word.stream) false d
      | none => d
  | none => d'

/-- MIGRATION (R263). -/
def execMigration (ctx k : Nat) (s : State) := s.onDev (migrate ctx k)
/-- MIGRATION_ABORT (R263). -/
def execMigrationAbort (ctx k : Nat) (s : State) := s.onDev (migAbort ctx k)

end Sys2Proof.Machine
end

