-- ==== Sys2Proof/Machine/Power.lean ====
section
/-! DEFINITION. Supply, Tape, temperature and wear (R449 to R466, R469). What an event resets of the whole chip is in Machine/Boot.lean. -/

namespace Sys2Proof.Machine

def modTape (f : TapeSt → TapeSt) (d : Dev) : Dev := { d with tape := f d.tape }
def modAge (f : AgeSt → AgeSt) (d : Dev) : Dev := { d with age := f d.age }
def modMod (f : ModSt → ModSt) (d : Dev) : Dev := { d with mod_ := f d.mod_ }

/-! ### Floors and the budget (R452) -/

def sagFloor (d : Dev) : Bool := !isSafe .pwr d && rdBit .pwr PWR_SAG 16 d

/-- A floor is asked for: THROTTLE_n, HOT, or the sag condition with SAG_FLOOR. -/
def floorAsked (d : Dev) : Bool := d.tape.throttle || d.tape.hot || (d.tape.sag && sagFloor d)

def peakWatts (d : Dev) : Nat := rdF .pwr PWR_RATING 16 16 d

/-- The budget of a period. -/
def budgetWatts (d : Dev) : Nat := if floorAsked d then min 1200 (capNow d) else capNow d

/-- The energy of a full bucket, in microjoules (R448): 10 ms of the peak above the sustained rating. -/
def fullBucket (d : Dev) : Nat := (peakWatts d - sustained d) * 10000

/-! ### The Tape's allowance (R455, R462) -/

def guardCycles (d : Dev) : Nat := rd .tck TCK_CYCLES d - rd .tck TCK_BUDGET d
def commitMhz (d : Dev) : Nat := rdF .glb GLB_CLK_COMMIT 0 12 d

/-- C − B − A: the guard less the alignment reserve. -/
def freeGuard (d : Dev) : Nat := guardCycles d - ceilDiv (25 * commitMhz d) 1000
def tapeShare (d : Dev) : Nat := if isSafe .pwr d then 4 else rdF .pwr PWR_TAPE_CFG 0 3 d
/-- L_T. -/
def tapeLimit (d : Dev) : Nat := freeGuard d * tapeShare d / 8
/-- The cycles of one stretch step per Stitch, and the most steps (R462). -/
def stretchUnit (d : Dev) : Nat := rdF .tck TCK_LEN 0 15 d * 5 / 100
def stretchMax (d : Dev) : Nat := min 5 ((freeGuard d - tapeLimit d) / stretchUnit d)

/-- The clock of a cluster: the committed one with bound work, else its own bin (R16). -/
def clusterMhz (p : Nat) (d : Dev) : Nat := if (busyClusters 64 d).contains p then commitMhz d else clusterBin false p d

/-! ### POWER_SHORT (R455, R458) -/

/-- POWER_SHORT is a trigger for every bound context (R267). -/
def powerShort (kind need : Nat) (d : Dev) : Dev :=
  let d := latchWith .pwr cPowerShort (wr .pwr PWR_SHORT (kind + need % 65536 * 65536)) d
  { d with jobs := d.jobs.map fun j => if j.phase = 1 || j.phase = 4 then { j with trig := putBits j.trig 3 1 1 } else j }

/-- The need of the bound contexts at the committed clock, in watts. -/
def boundNeed (d : Dev) : Nat := ceilDiv (need1900 (busyClusters 64 d).length (commitMhz d) d) 1900

/-- A cap that falls below the need latches once (KIND 1). -/
def checkNeed (d : Dev) : Dev :=
  let above := !(busyClusters 64 d).isEmpty && decide (capNow d < boundNeed d)
  let was := d.tape.needy
  let d := modTape (fun t => { t with needy := above }) d
  if above && !was then lowerCap (binFor d) (powerShort 1 (boundNeed d) d) else d

/-! ### A period (R453, R454) -/

/-- Freeze cycles of a cluster in the Stitch, counted in millionths; PWR_CLU shows whole cycles, a part of one counting as one. -/
def frzAt (p : Nat) (d : Dev) : Nat := ((d.tape.frz.find? fun f => f.1 == p).map Prod.snd).getD 0
def addFrz (p n : Nat) (d : Dev) : Dev :=
  modTape (fun t => { t with frz := (p, frzAt p d + n) :: t.frz.filter fun f => f.1 != p }) d
def frzCycles (p : Nat) (d : Dev) : Nat := ceilDiv (frzAt p d) 1000000

/-- TAPE_PERIOD (DEDUCED, log entry 104). -/
def tapePeriod (t : TapeInput) (d : Dev) : Dev :=
  let budget := budgetWatts d
  let floor := floorAsked d
  let d := if rdF .pwr PWR_BUDGET 0 16 d = budget then d else setEvent .pwr 8 (wrF .pwr PWR_BUDGET 0 16 budget d)
  let d := modTape (fun x => { x with floored := x.floored || floor, cv := t.cv, watts := t.watts }) (wrBit .pwr R_STATUS 8 floor d)
  let allow := if budget = sustained d && decide (0 < d.tape.bucket) then peakWatts d else budget
  let avail := allow - t.fixed
  let demand := t.demand.sum
  let used := if demand ≤ avail then demand else avail
  let d := t.demand.zipIdx.foldl (fun d c => wrB .pwr PWR_CLU c.2 (putBits (rdB .pwr PWR_CLU c.2 d) 16 16 c.1) d) d
  let d := if demand ≤ avail then d else
    (List.range 32).foldl (fun d p => addFrz p (clusterMhz p d * (demand - avail) * 1000000 / demand) d) d
  let draw := t.fixed + used
  let above := decide (sustained d < draw)
  let d := modTape (fun x => { x with
    bucket := if above then x.bucket - (draw - sustained d) else min (x.bucket + (sustained d - draw)) (fullBucket d)
    uj := x.uj + t.watts }) (wrBit .pwr R_STATUS 12 above d)
  let d := wrF .pwr PWR_BUCKET 0 16 (d.tape.bucket / 1000) (bump64 .pwr PWR_ENERGY_LO (d.tape.uj / 1000) d)
  let d := modTape (fun x => { x with uj := x.uj % 1000 }) d
  let d := checkNeed d
  if !d.tape.short && (List.range 32).any (fun p => decide (tapeLimit d < frzCycles p d)) then
    lowerCap (rdF .pwr PWR_BINCAP 0 12 d - 25) (powerShort 2 0 (modTape (fun x => { x with short := true }) d))
  else d

/-- What a Stitch does to the Tape's counts: the interval's freeze cycles are shown, and counting begins anew. -/
def tapeStitch (d : Dev) : Dev :=
  let d := (List.range 32).foldl (fun d p => wrB .pwr PWR_CLU p (putBits (rdB .pwr PWR_CLU p d) 0 16 (sat 65535 (frzCycles p d))) d) d
  modTape (fun x => { x with frz := [], short := false, floored := floorAsked d }) d

/-- The throttle condition of R204 for a frame: a floor was in force, or a cluster's freeze cycles exceeded C − B. -/
def throttled (p : Nat) (d : Dev) : Bool := d.tape.floored || decide (guardCycles d < frzCycles p d)

/-- TAPE_RECALIBRATE (R453, R467): the VRM telemetry of each 100 µs. The weights themselves show only in the demands of later periods. -/
def tapeRecalibrate (d : Dev) : Dev := wr .pwr PWR_IN (d.tape.cv % 65536 + d.tape.watts % 65536 * 65536) d

/-! ### Input and rails (R449 to R451, R457) -/

/-- SAG_WARN (R449, R450): latched once per crossing; firmware seals the log, at most once per 60 s (DEDUCED, log entry 109). -/
def sagWarn (d : Dev) : Dev :=
  if d.tape.sag then d
  else sealBegin 1 (latch .pwr cSagWarn (wrBit .pwr R_STATUS 10 true (modTape (fun t => { t with sag := true }) d)))

/-- The sag condition ends. -/
def sagClear (d : Dev) : Dev := wrBit .pwr R_STATUS 10 false (modTape (fun t => { t with sag := false }) d)

/-- RAIL_WARN (R451): the rail's voltage and its warning. -/
def railWarn (rail mv : Nat) (d : Dev) : Dev :=
  if rail < 50 then
    let v := rdB .pwr PWR_RAIL rail d
    setEvent .pwr 9 (wrB .pwr PWR_RAIL rail (putBits (putBits v 0 16 mv) 24 1 1) d)
  else d

/-- The level of a pin after its filter (R517). -/
def setPin (n : Nat) (v : Bool) (d : Dev) : Dev := modMod (fun m => { m with pins := putBits m.pins n 1 (b2n v) }) d
def pinHigh (n : Nat) (d : Dev) : Bool := bit d.mod_.pins n

/-- THROTTLE_ASSERT (R457, R511). -/
def throttleAssert (d : Dev) : Dev :=
  let d := setPin 1 false d
  if chipHeld d || d.tape.throttle then d
  else bump .pwr PWR_THROTTLE 1 (wrBit .pwr R_STATUS 9 true (modTape (fun t => { t with throttle := true }) d))

/-- THROTTLE_DEASSERT (R457). -/
def throttleDeassert (d : Dev) : Dev :=
  let d := setPin 1 true d
  if chipHeld d then d else wrBit .pwr R_STATUS 9 false (modTape (fun t => { t with throttle := false }) d)

/-- THROTTLE_STUCK (R457): low for more than 1 s. -/
def throttleStuck (d : Dev) : Dev := if d.tape.throttle then latch .pwr cPinStuck d else d

/-! ### Wear (R460 to R466) -/

/-- The contexts with bound work on a cluster. -/
def clusterCtxs (p : Nat) (d : Dev) : List Nat := (List.range 64).filter fun x => (ctxCores x d).any fun c => c.die * 8 + c.cl == p

/-- The cores of a cluster are recorded as failed (R463, R432 KIND 10). -/
def failClusterCores (p : Nat) (d : Dev) : Dev :=
  ((cluCores (p / 8) (p % 8)).filter fun c => coreAlive c d).foldl (fun d c => markFailed c (addRepair 10 (blkInstance (.cor c)) c.slot 0 d)) d

/-- A critical reading (R463). -/
def critical (p : Nat) (sram : Bool) (d : Dev) : Dev :=
  let d := setEvent .age 11 (latch .age cMarginLow d)
  let ctxs := clusterCtxs p d
  let d := addAge 3 p (bits (ageClu p d) 24 8) [] d
  let d := if ageBin p d ≤ 1500 && ageGuard p d = 12 then failClusterCores p d
    else
      let d := if sram then setAgeF p 19 4 (12 - ageGuard p d) d else d
      let d := if 1500 < ageBin p d then setAgeF p 23 1 1 d else d
      applyWear true p d
  let d := { d with jobs := d.jobs.map fun j => if ctxs.contains j.ctx && (j.phase == 1 || j.phase == 4) then { j with trig := putBits j.trig 0 1 1 } else j }
  syncPending 0 (ctxs.foldl (fun d x => contextReset x 6 d) d)

/-- A cluster's sample (R461, R462) (DEDUCED, log entry 107). -/
def sampleCluster (w : WearReading) (d : Dev) : Dev :=
  let p := w.unit
  let d := wrB .age AGE_SRAM p (w.vmin % 65536) (setAgeF p 24 8 (sat 255 w.margin) d)
  let t := rd .age AGE_TARGET d
  let max := stretchMax d
  let crit := (decide (w.margin < bits t 8 8) && decide (max ≤ ageStretch p d)) || decide (w.sram < 10)
  if crit then critical p (decide (w.sram < 10)) d
  else
    let short := bits t 0 8 - w.margin
    let d := if 0 < short && ageStretch p d < max then
        let first := !d.age.stretched.contains p
        let d := setAgeF p 16 3 (ageStretch p d + 1) (modAge (fun a => { a with stretched := Sparse.mark a.stretched p }) d)
        if first then setEvent .age 8 (latch .age cMarginLow d) else d
      else d
    let steps := Nat.max (ceilDiv short 5) (ceilDiv (bits t 16 8 - w.sram) 5)
    let room := 12 - ageGuard p d
    let d := setAgeF p 19 4 (Nat.max (agePendGuard p d) (min steps room)) d
    if room < ceilDiv short 5 && 1500 < ageBin p d && !agePendBin p d then syncPending 0 (setAgeF p 23 1 1 d) else d

/-- A link's sample (R464). -/
def sampleLink (w : WearReading) (d : Dev) : Dev :=
  let lim := rd .age AGE_LIMITS d
  let k := 128 + w.unit
  let d := wrB .age AGE_CLU k (putBits (rdB .age AGE_CLU k d) 24 8 (sat 255 w.margin)) d
  let d := if w.margin < bits lim 0 8 then
      setEvent .age 9 (latch .age cMarginLow (modAge (fun a => { a with lowEyes := Sparse.mark a.lowEyes w.unit }) d))
    else modAge (fun a => { a with lowEyes := Sparse.unmark a.lowEyes w.unit }) d
  if w.margin < bits lim 8 8 then retrainAct w.unit d else d

/-- A channel's sample (R464, R427). -/
def sampleChannel (w : WearReading) (d : Dev) : Dev :=
  let lim := rd .age AGE_LIMITS d
  let k := 256 + w.unit
  let d := wrB .age AGE_CLU k (putBits (rdB .age AGE_CLU k d) 24 8 (sat 255 w.margin)) d
  let d := if w.margin < bits lim 16 8 then setEvent .age 10 (latch .age cMarginLow d) else d
  if w.margin < bits lim 24 8 then mapoutAct w.unit (wrBit (chanBlk w.unit) (chanReg w.unit) 16 true d) else d

/-- How many units of a kind there are: clusters, links, channels. -/
def wearUnits (kind : Nat) : Nat := match kind with | 0 => 32 | 1 => 32 | 2 => 96 | _ => 0

/-- AGE_SAMPLE (R460): nothing with EN = 0, in the safe state (R469) or in reset. -/
def ageSample (w : WearReading) (d : Dev) : Dev :=
  if !rdBit .age AGE_CFG 16 d || idle .age d || inReset .age d || decide (wearUnits w.kind ≤ w.unit) then d
  else
    let d := bump64 .age AGE_SAMPLES_LO 1 (if w.late then bump .age AGE_LATE 1 d else d)
    let k := 128 * w.kind + w.unit
    let d := modAge (fun a => { a with last := (k, w.paths, if w.kind = 0 then w.sram else w.margin) :: a.last.filter fun x => x.1 != k }) d
    match w.kind with
    | 0 => sampleCluster w d
    | 1 => sampleLink w d
    | _ => sampleChannel w d

/-- AGE_HOURLY_SUMMARY (R466): a record of every monitor read (DESIGN CHOICE, log entry 108). -/
def ageHourly (d : Dev) : Dev :=
  d.age.last.foldl (fun d x =>
    if x.1 < 128 then
      let q (i : Nat) : Nat := (x.2.1[i]?).getD 0 % 65536
      addAge 4 x.1 (bits (ageClu x.1 d) 24 8) [q 0 + q 1 * 65536, q 2 + q 3 * 65536, x.2.2, 0] d
    else addAge (x.1 / 128 + 4) (x.1 % 128) x.2.2 [] d) d

/-- The end of a fitting epoch of a context in which no refit runs (R461, R464): pending guard steps apply on its clusters, and links with a
low eye that carry no scheduled flow go back to training. -/
def epochWear (ctx : Nat) (d : Dev) : Dev :=
  let ps := ((ctxCores ctx d).map fun c => c.die * 8 + c.cl).eraseDups
  let d := ps.foldl (fun d p => applyWear false p d) d
  let used := d.net.flows.filterMap fun f => f.2.link
  let go := d.age.lowEyes.filter fun l => !used.contains l && linkUp l d
  go.foldl (fun d l => linkLeaves l 2 d) (modAge (fun a => { a with lowEyes := a.lowEyes.filter (!go.contains ·) }) d)

/-! ### The commands -/

/-- TAPE_PERIOD (R453). -/
def execTapePeriod (t : TapeInput) (s : State) := s.onDev (tapePeriod t)
/-- TAPE_RECALIBRATE (R453). -/
def execTapeRecalibrate (s : State) := s.onDev tapeRecalibrate
/-- SAG_WARN (R450). -/
def execSagWarn (s : State) := s.onDev sagWarn
/-- SAG_WARN_CLEAR (R449). -/
def execSagWarnClear (s : State) := s.onDev sagClear
/-- RAIL_WARN (R451). -/
def execRailWarn (rail mv : Nat) (s : State) := s.onDev (railWarn rail mv)
/-- THROTTLE_ASSERT (R457). -/
def execThrottleAssert (s : State) := s.onDev throttleAssert
/-- THROTTLE_DEASSERT (R457). -/
def execThrottleDeassert (s : State) := s.onDev throttleDeassert
/-- THROTTLE_STUCK (R457). -/
def execThrottleStuck (s : State) := s.onDev throttleStuck
/-- AGE_SAMPLE (R461). -/
def execAgeSample (w : WearReading) (s : State) := s.onDev (ageSample w)
/-- AGE_HOURLY_SUMMARY (R466). -/
def execAgeHourlySummary (s : State) := s.onDev ageHourly

end Sys2Proof.Machine
end

