-- ==== Sys2Proof/Machine/RegView.lean ====
section
/-! DEFINITION. What a register reads as (R37, R41 to R55, R111): stored values by bank, and the fields that show the state of a block. -/

namespace Sys2Proof.Machine

/-! ### Registers that act on a selection -/

/-- The index that a selector register gives to the register at `o`; none where `o` is a single register. -/
def bankIdx (b : Blk) (o : Nat) (d : Dev) : Option Nat :=
  match b with
  | .sct _ =>
    let s := rd b SCT_SEL d
    if o = SCT_CFG || o = SCT_CUR then some (bits s 0 6) else if o = SCT_HIST then some (16 * bits s 0 6 + bits s 8 4) else none
  | .seq c =>
    let q := o % 0x80
    if 0x100 ≤ o && o < 0x100 + 0x80 * nStreams c && (q = S_SREG_LO || q = S_SREG_HI) then some (rdF b (o - q + S_SREG_SEL) 0 4 d) else none
  | .tck =>
    if o = TCK_SEG || o = TCK_OVF_CNT || o = TCK_OVR_CNT then some (rdF b TCK_CTX_SEL 0 6 d)
    else if o = TCK_MISS || o = TCK_MISS_INFO then some (rdF b TCK_MISS_SEL 0 5 d)
    else none
  | .msh _ _ =>
    if o = MSH_RT then some (rdF b MSH_RT_SEL 0 8 d + 256 * rdF b MSH_RT_SEL 8 1 d)
    else if o = MSH_FLITS_LO || o = MSH_FLITS_HI then some (rdF b MSH_PORT_SEL 0 4 d)
    else none
  | .lnk _ _ =>
    if o = LNK_VLOG then some (rdF b LNK_VLOG_SEL 0 6 d * 16 + rdF b LNK_VLOG_SEL 8 4 d)
    else none
  | .fab =>
    if FAB_FLOW ≤ o && o ≤ FAB_FLOW_LANDED_HI then some (rdF b FAB_FLOW_SEL 0 14 d)
    else if o = FAB_MC then some (rdF b FAB_MC_SEL 0 10 d)
    else none
  | .prs 0 =>
    if PRS_CTL ≤ o && o ≤ PRS_DG_CFG then some (rdF b PRS_CTX_SEL 0 6 d)
    else if o = PRS_TRK_CFG || o = PRS_TRK_CUR then some (rdF b PRS_TRK_SEL 0 6 d)
    else if o = PRS_TRK_HIST then some (16 * rdF b PRS_TRK_SEL 0 6 d + rdF b PRS_TRK_SEL 8 4 d)
    else none
  | .snp 0 => if SNP_CTL ≤ o && o ≤ SNP_PAR_GEN_HI then some (rdF b SNP_CTX_SEL 0 6 d) else none
  | .rst | .rstd _ => if RST_REC ≤ o && o ≤ RST_REC_US then some (rdF b RST_REC_SEL 0 4 d) else none
  | .pwr => if o = PWR_CLU then some (rdF b PWR_CLU_SEL 0 5 d) else if o = PWR_RAIL then some (rdF b PWR_RAIL_SEL 0 6 d) else none
  | .age => if o = AGE_CLU || o = AGE_SRAM then some (128 * rdF b AGE_SEL 8 2 d + rdF b AGE_SEL 0 7 d) else none
  | .sel => if o = SEL_CTR then some (rdF b SEL_CTR_SEL 0 6 d) else none
  | .pci =>
    if o = PCI_GRANT || o = PCI_GRANT_BASE || o = PCI_GRANT_LEN then some (rdF b PCI_GRANT_SEL 0 6 d + 64 * rdF b PCI_GRANT_SEL 8 3 d)
    else if o = PCI_VF4BASE then some (rdF b PCI_VF4BASE_SEL 0 6 d)
    else if o = PCI_MSIX_MAP then some (rdF b PCI_MSIX_SEL 0 4 d)
    else if o = PCI_GLITCH then some (rdF b PCI_PIN_SEL 0 3 d)
    else if o = PCI_PINLOG || o = PCI_PINLOG_NUM_LO || o = PCI_PINLOG_NUM_HI then some (rdF b PCI_PINLOG_SEL 0 4 d)
    else if o = PCI_ERRLOG then some (rdF b PCI_ERRLOG_SEL 0 8 d)
    else none
  | _ => none

/-- The key of the value that an access to `o` reaches. -/
def accKey (b : Blk) (o : Nat) (d : Dev) : Nat := match bankIdx b o d with | some i => bankKey b o i | none => regKey b o

/-! ### Events (R49, R50, R521) -/

/-- EVENT of a leaf block, and bits [1:0] of a summary block. -/
def ownEvent (b : Blk) (d : Dev) : Nat :=
  putBits (rd b R_EVENT d) 0 2 (b2n (faultValid b d) + 2 * b2n (rdBit b R_PARITY 0 d))

/-- EVENT AND EVENT_EN is not zero, for an EVENT value. -/
def passes (b : Blk) (ev : Nat) (d : Dev) : Bool := ev &&& rd b R_EVENT_EN d != 0
def leafOn (b : Blk) (d : Dev) : Bool := passes b (ownEvent b d) d

/-- One bit for each member of a list, from bit `lo`. -/
def bitList (lo : Nat) (bs : List Bool) : Nat := (bs.zipIdx.map fun p => b2n p.1 * 2 ^ (lo + p.2)).sum

def corEvent (c : CoreRef) (d : Dev) : Nat :=
  ownEvent (.cor c) d % 4 + bitList 8 (((coreBlks c).drop 1).map fun b => leafOn b d)

def cluEvent (k c : Nat) (d : Dev) : Nat :=
  ownEvent (.clu k c) d % 4 +
    bitList 8 (((cluCores k c).map fun x => passes (.cor x) (corEvent x d) d) ++ [leafOn (.str k c 0) d, leafOn (.str k c 1) d])

def dieUnitEv (k : Nat) (d : Dev) : Nat :=
  bitList 0 ((List.range 4).map (fun i => leafOn (.nsc k i) d) ++ (List.range 6).map (fun i => leafOn (.fmc k i) d) ++
    (List.range 8).map fun i => leafOn (.lnk k i) d)
def dieMshEv (k : Nat) (d : Dev) : Nat := bitList 0 ((List.range 48).map fun r => leafOn (.msh k r) d)

def dieEvent (k : Nat) (d : Dev) : Nat :=
  let u := dieUnitEv k d
  ownEvent (.die k) d % 4 + bitList 8 (((List.range 8).map fun c => passes (.clu k c) (cluEvent k c d) d) ++
    [leafOn (.prs k) d, leafOn (.snp k) d, leafOn (.rstd k) d,
     bits u 0 4 != 0, bits u 4 6 != 0, bits u 10 8 != 0, dieMshEv k d != 0])

/-- GLB_EVENT (R50, R51). -/
def glbEvent (d : Dev) : Nat :=
  ownEvent .glb d % 4 + bitList 8 (((List.range 4).map fun k => passes (.die k) (dieEvent k d) d) ++
    (chipBlks.drop 1).map fun b => leafOn b d)

def eventVal (b : Blk) (d : Dev) : Nat :=
  match b with
  | .cor c => corEvent c d
  | .clu k c => cluEvent k c d
  | .die k => dieEvent k d
  | .glb => glbEvent d
  | _ => ownEvent b d

/-! ### STATUS (R44 and the chapters) -/

def arrReg (c : CoreRef) (o : Nat) (d : Dev) : List Nat := (List.range 4).filterMap fun i =>
  let v := rd (.arr c) (o + 4 * i) d
  if bit v 15 && decide (bits v 0 8 ≤ 131) then some (bits v 0 8) else none
def badRepair (c : CoreRef) (d : Dev) : Bool := (List.range 8).any fun i =>
  let v := rd (.arr c) (ARR_REPAIR_ROW0 + 4 * i) d
  bit v 15 && decide (131 < bits v 0 8)

/-- The repair registers differ from the table in use (R100). -/
def repairPending (c : CoreRef) (d : Dev) : Bool :=
  let a := getArr c d
  let rows := arrReg c ARR_REPAIR_ROW0 d
  let cols := arrReg c ARR_REPAIR_COL0 d
  rows.any (!a.exRows.contains ·) || a.exRows.any (!rows.contains ·) || cols.any (!a.exCols.contains ·) ||
    a.exCols.any (!cols.contains ·) || badRepair c d != a.badEntry

/-- The Press of a die works on some context: it commits, or a reduction operation, a multicast or a flag update of its own waits for its answer
(R362, R370, R398). -/
def pressBusy (k : Nat) (d : Dev) : Bool := d.press.any fun p =>
  let mine (i : Issuer) : Bool := match i with
    | .press c e op => c == p.1 && e % 4 == k && (match op with | .digest _ | .digestFlag => false | _ => true)
    | _ => false
  bits (prsR p.1 PRS_CTL d) 4 3 == 2 || (p.2.st.zipIdx.any fun e => e.1.sending && e.2 % 4 == k) ||
    (d.net.reqs.any fun r => mine r.by_) || (d.net.flows.any fun f => f.2.held.any fun h => mine h.1) ||
    (p.2.queue.any fun h => mine (.press p.1 h.1 h.2.1)) ||
    d.net.groups.any fun g => g.source == ownDev d && g.todo.any fun x => x.ctx == p.1 && x.ent.getD 0 % 4 == k

def snapBusy (d : Dev) : Bool := d.snap.any fun p =>
  p.2.capturing || (p.2.restore.isSome && !p.2.restored) || p.2.snap.isSome || p.2.gen.isSome || p.2.relay.isSome

def fwPending (d : Dev) : Nat := (d.cores.filter fun c => c.2.fwWait).length

/-- Bits [31:8] of STATUS, in place. -/
def statusHigh (b : Blk) (d : Dev) : Nat :=
  match b with
  | .arr c =>
    let a := getArr c d
    bitList 8 [a.prod.any (fun x => x.started || decide (0 < x.part)) || !a.pipe.isEmpty || a.drains.any (·.out.isSome) || a.load.any (·.running), a.set0.quar || a.set1.quar,
               repairPending c d]
  | .txb c => bitList 8 [(getCore c d).jobs.any (fun j => j.phase == .running && (match j.work with | .transpose 0 .. => true | _ => false)),
                         (getCore c d).jobs.any (fun j => j.phase == .running && (match j.work with | .transpose 1 .. => true | _ => false))]
  | .seq c => bitList 8 ((List.range (nStreams c)).map fun n => streamOn c n d && !stopped c n d && rdBit b R_CTRL 0 d)
  | .tck => bitList 8 [d.tck.aligned || (rdBit .tck TCK_CFG 0 d && !rdBit .tck TCK_CFG 1 d), d.tck.holdover, d.tck.syncLost, d.tck.expired]
  | .mrk => bitList 8 [[1, 2, 5].contains (rdF .mrk MRK_FIT_STAT 8 3 d), d.jobs.any (fun j => jobTriggers j d != 0 || binTrigger j d),
                       d.jobs.any fun j => j.due && (getSeam j.ctx d).held]
  | .msh k r =>
    let p := routerPos k r
    let i := posOf p.1 p.2
    bitList 8 [isRetired i d, d.net.holding.isSome, d.net.mesh.any fun m => m.at_ == i && m.bank != activeBank i d]
  | .lnk k i => bitList 8 [linkUp (8 * k + i) d]
  | .fab => bitList 8 [rdBit .fab FAB_CMAP_CTL 0 d && !isSafe .fab d && !inReset .fab d]
  | .prs k => bitList 8 [pressBusy k d]
  | .snp _ => bitList 8 [snapBusy d]
  | .rst => bitList 8 [d.runs.any (fun r => decide (r.rst = b)), rdF .rst RST_BOOT 0 4 d == 8, fwPending d != 0]
  | .rstd _ => bitList 8 [d.runs.any fun r => decide (r.rst = b)]
  | .pwr => rd .pwr R_STATUS d / 256 * 256
  | .sel => selMode d * 256
  | .log => bitList 8 [copyDue d, d.sealing.isSome, logHwr d - d.log.hack == hostRing d]
  | .pci => bitList 8 [rdF .pci PCI_LINK 0 3 d != 0, rdF .pci PCI_LINK 0 3 d == 6]
  | _ => 0

def statusVal (b : Blk) (d : Dev) : Nat :=
  bitList 0 [rdBit b R_CTRL 0 d && !isSafe b d, fenced b d, inReset b d, isSafe b d] + statusHigh b d

/-! ### CAPS -/

/-- The populated local ports of a router (R276, R277). -/
def localPorts (k r : Nat) : Nat :=
  if 16 ≤ r && r < 32 then (if k = 0 && (r = 19 || r = 27) then 2 else 1)
  else if r / 8 % 2 = 0 then 4 else 3

def caps0 (b : Blk) : Nat :=
  match b with
  | .arr _ => 8191
  | .seq c => nStreams c + 64 * 16
  | .nsc _ _ => 1536 + 16 * 65536
  | .str _ _ _ => 256
  | .mrk => 16384 + 63 * 65536
  | .msh k r =>
    let die := decide (16 ≤ r) && decide (r < 32)
    b2n die + 2 * localPorts k r + 16 * (if die then 2 else 1)
  | .lnk k i =>
    let l := 8 * k + i
    linkAxis l + 8 * linkSide l + 16 * linkIndex l + 64 * l + 2048 * b2n (isTickLink l)
  | .fab => 16384 + 1024 * 65536
  | .prs _ => 512 + 64 * 65536
  | .snp _ => 40
  | _ => 0

def caps1 (b : Blk) : Nat := match b with | .arr _ => 612402308 | _ => 0

/-! ### Fields that show state -/

def arrMode (c : CoreRef) (d : Dev) : Nat :=
  let a := getArr c d
  a.fmtA + 16 * a.fmtB + 256 * b2n a.spA + 512 * b2n a.spB + 1024 * b2n a.quarter + 2048 * a.active + 4096 * a.set0.tag +
    16384 * a.set1.tag + 65536 * b2n a.set0.wrap + 131072 * b2n a.set1.wrap

/-- The generator lane that VEC or VCR selects: its counter. -/
def laneShown (c : CoreRef) (sel : Nat) (d : Dev) : Nat := laneCtr (getCore c d) (rd (if isMatrix c then .vec c else .seq c) sel d)

def bindShown (d : Dev) : Nat :=
  let s := rd .mrk MRK_BIND_SEL d
  if bits s 16 2 = 3 then 0
  else match boundCore (bits s 0 6) (bits s 16 2) (bits s 8 8) d with
    | some c => c.slot + 16 * c.cl + 256 * c.die + 2 ^ 31
    | none => 0

def refitShown (d : Dev) : Nat :=
  d.jobs.foldl (fun v j => v ||| jobTriggers j d ||| (if binTrigger j d then 4 else 0)) 0

def creditShown (l : Nat) (d : Dev) : Nat :=
  let s := getLink l d
  let i := min 12 (rdF (lnkBlk l) LNK_CREDIT_SEL 0 4 d)
  let tx := (s.credit[i]?).getD 0
  bits tx 0 13 + bits ((s.charged[i]?).getD 0) 0 13 * 65536

/-- A port of a router that is there (R276 to R278): a neighbour in the package, a local port, a near-store port. -/
def portThere (k r port : Nat) : Bool :=
  let p := routerPos k r
  if port < 4 then (neighbour (posOf p.1 p.2) port).isSome
  else if port < 8 then decide (port - 4 < localPorts k r)
  else port == 8 || (port == 9 && decide (16 ≤ r) && decide (r < 32))

/-- Occupancy of the last complete Stitch (R299, R328) and the arbitration counts of R148, which the model leaves free: entry `i` of
the values of that Stitch. -/
def histShown (i : Nat) (d : Dev) : Nat := match d.histBase with | some n => (Config.freeValue (n + i)).toNat | none => 0

/-- TCK_HOLD.ELAPSED (R218): in holdover a free value up to LIMIT, until the limit has been reached (DESIGN CHOICE, log entry 147). -/
def holdShown (d : Dev) : Nat :=
  let limit := rdF .tck TCK_HOLD 16 14 d
  if d.tck.holdover && decide (rdF .tck TCK_HOLD 0 14 d < limit) then min limit (Config.holdoverMs (stitchNum d) d.cycle)
  else rdF .tck TCK_HOLD 0 14 d

/-- The value of a register or field that is not kept under its own key; `v` is what is kept there. STR_QUEUE.QUEUED counts the starts that have been
passed to the engine, not the slots that still wait in a core's queue (DESIGN CHOICE, log entry 154). -/
def shown (b : Blk) (o v : Nat) (d : Dev) : Nat :=
  if o = R_ID then blkId b
  else if o = R_VERSION then 0x100
  else if o = R_CAPS0 then caps0 b
  else if o = R_CAPS1 then caps1 b
  else if o = R_STATUS then statusVal b d
  else if o = R_EVENT then eventVal b d
  else if o < 0x40 then v
  else match b with
    | .die k => if o = DIE_UNIT_EV then dieUnitEv k d else if o = DIE_MSH_EV_LO then bits (dieMshEv k d) 0 32
                else if o = DIE_MSH_EV_HI then bits (dieMshEv k d) 32 16 else v
    | .arr c =>
      let a := getArr c d
      if o = ARR_MODE then arrMode c d
      else if o = ARR_QUAR then b2n a.set0.quar + 2 * b2n a.set1.quar + 65536 * b2n a.dump.busy
      else v
    | .fed c =>
      if o = FED_BUF then match (getArr c d).prod with | some x => x.fa.buf.length + 256 * x.fb.buf.length | none => 0
      else v
    | .vec c =>
      if o = VEC_RNG_CTR_LO then bits (laneShown c VEC_RNG_SEL d) 0 32
      else if o = VEC_RNG_CTR_HI then bits (laneShown c VEC_RNG_SEL d) 32 32
      else v
    | .seq c =>
      if o = SEQ_SB_STAT then putBits v 0 7 (sbUsed (getCore c d))
      else if isVector c && o = VCR_RNG_CTR_LO then bits (laneShown c VCR_RNG_SEL d) 0 32
      else if isVector c && o = VCR_RNG_CTR_HI then bits (laneShown c VCR_RNG_SEL d) 32 32
      else v
    | .lmm c =>
      let i := 12544 + 2 * blkInstance (.lmm c)
      if o = LMM_CONF_LO then bits (histShown i d) 0 32 else if o = LMM_CONF_HI then bits (histShown (i + 1) d) 0 32 else v
    | .tck => if o = TCK_PARENT then
        putBits (putBits v 5 1 (b2n (rdBit .tck TCK_CFG 0 d))) 0 5
          (if rdBit .tck TCK_PARENT 8 d then (parentLink d).getD (bits v 0 5) else bits v 0 5)
      else if o = TCK_HOLD then putBits v 0 14 (holdShown d)
      else v
    | .str k c i =>
      let e := getStr (engKey k c i) d
      if o = STR_QUEUE then e.queue.length + 256 * b2n (e.xfers.any (!·.ended)) else v
    | .mrk =>
      if o = MRK_BIND then bindShown d else if o = MRK_REFIT then refitShown d
      else if o = MRK_FLOWS then 16384 - (usedFlows 64 d).length else v
    | .msh k r =>
      if o = MSH_POS then let p := routerPos k r; p.1 + 256 * p.2
      else if o = MSH_HIST then 
        let p := routerPos k r
        if portThere k r (rdF b MSH_PORT_SEL 0 4 d) then histShown (64 * posOf p.1 p.2 + rdF b MSH_PORT_SEL 0 6 d) d else 0
      else if o = MSH_CFG then putBits v 2 1 (rdF b MSH_TBL (1 + rdF b MSH_TBL 0 1 d) 1 d)
      else v
    | .lnk k i =>
      if o = LNK_CREDIT then creditShown (8 * k + i) d
      else if o = LNK_STATE then putBits v 0 3 (linkState (8 * k + i) d)
      else if o = LNK_HIST then histShown (12288 + 8 * (8 * k + i) + rdF b LNK_HIST_SEL 0 3 d) d
      else v
    | .fab => if o = FAB_FLOW_OUT then let f := rdF b FAB_FLOW_SEL 0 14 d; flowOutPkts f d + 256 * flowOutBytes f d else v
    | .snp 0 =>
      let g := parGen (rdF b SNP_CTX_SEL 0 6 d) d
      if o = SNP_PAR_GEN_LO then bits g 0 32 else if o = SNP_PAR_GEN_HI then bits g 32 32 else v
    | .rst => if o = RST_FW then putBits v 16 9 (fwPending d) else v
    | .pwr =>
      if o = PWR_TAPE_CFG then putBits v 16 16 (tapeLimit d)
      else if o = PWR_RAIL then let r := rdF b PWR_RAIL_SEL 0 6 d; if r < 32 then putBits v 16 8 (5 * ageGuard r d) else v
      else v
    | .age => if o = AGE_STRETCH_MAX then stretchMax d else v
    | .log => if o = LOG_FREAD then freadWord d else if o = LOG_UNDRAINED then undrained d else v
    | .pci => if o = PCI_PIN then bits d.mod_.pins 0 7 else v
    | _ => v

/-- What an implemented register reads as: WO fields read 0 (R7). -/
def regVal (b : Blk) (o : Nat) (d : Dev) : Nat :=
  match regSpec b o with
  | some s => (shown b o (rdKey d (accKey b o d)) d &&& (0xFFFFFFFF - s.wo)) % 2 ^ 32
  | none => 0

/-- What a read leaves behind: the peak of the scoreboard starts again, LOG_FREAD moves on. -/
def readDone (b : Blk) (o : Nat) (d : Dev) : Dev :=
  match b with
  | .seq c => if o = SEQ_SB_STAT then wrF b SEQ_SB_STAT 8 7 (sbUsed (getCore c d)) d else d
  | .log => if o = LOG_FREAD then freadStep d else d
  | _ => d

/-! ### What GLB_EVENT drives (R51, R511) -/

/-- The interrupt conditions that have come up send their MSI-X messages, and ALERT_n follows its enables. -/
def alerts (d : Dev) : Dev :=
  let ev := glbEvent d &&& rd .glb R_EVENT_EN d
  let fresh := (List.range 16).filter fun i => bit ev (8 + i) && !bit d.mod_.signalled (8 + i)
  let d := fresh.foldl (fun d i => toHost false (.msix 0 (bits (rdB .pci PCI_MSIX_MAP i d) 0 10)) d) d
  let on := glbEvent d &&& rd .pci PCI_ALERT_EN d != 0 || rdF .rst RST_BOOT 0 4 d == 8
  let d := if on = d.mod_.alert then d else { d with out := .pin 1 (!on) :: d.out }
  modMod (fun m => { m with alert := on, signalled := ev }) d

/-- A mesh cycle passes with nothing commanded (log entry 2): it is counted, and what the events drive follows them. -/
def meshCycle (d : Dev) : Dev := if d.mod_.rails then alerts { d with cycle := d.cycle + 1 } else d

end Sys2Proof.Machine
end

