-- ==== Sys2Proof/Machine/Retire.lean ====
section
/-! DEFINITION. Retirement of a router (R285) and the state FAILED (R431). -/

namespace Sys2Proof.Machine

/-- RST_BOOT.STATE becomes FAILED with its cause (R431, R445). -/
def setFailed (cause : Nat) (d : Dev) : Dev := wrF .rst RST_BOOT 16 4 cause (wrF .rst RST_BOOT 0 4 8 d)

/-- The device fails in service (R431): the failure is recorded, every bound context is reset and every link port fenced. -/
def failDevice (cause : Nat) (b : Blk) (d : Dev) : Dev :=
  if devFailed d then d
  else
    let d := setFailed cause (addRepair 11 (blkInstance b) cause 0 d)
    let d := (boundCtxs d).foldl (fun d x => contextReset x 6 d) d
    (List.range 32).foldl (fun d l =>
      let d := wrBit (lnkBlk l) R_CTRL 1 true d
      if linkState l d = 0 then d else linkDown l 5 d) d

/-- Cores whose router stands at a position (R276). -/
def coresAt (p : Nat) : List CoreRef := allCores.filter fun c => corePos c == p

/-- Jobs with a core in a list have the trigger of row 1 of R267. -/
def faultJobs (cs : List CoreRef) (d : Dev) : Dev :=
  { d with jobs := d.jobs.map fun j =>
      if (j.phase == 1 || j.phase == 4) && j.cores.any (fun c => cs.any fun x => coreKey x == c.2) then { j with trig := putBits j.trig 0 1 1 } else j }

/-- The units of a retired router (R285). A failed stream engine fails its cluster (R429). -/
def unitsLost (p : Nat) (d : Dev) : Dev :=
  let cs := (coresAt p).filter fun c => coreAlive c d
  let d := cs.foldl (fun d c => failCore c d) d
  let strs := (allClusters.flatMap fun q => [(q.1, q.2, 0), (q.1, q.2, 1)]).filter fun s => strPos s.1 s.2.1 s.2.2 == p
  let d := strs.foldl (fun d s => failCluster s.1 s.2.1 d) d
  let d := faultJobs (cs ++ strs.flatMap fun s => cluCores s.1 s.2.1) d
  let d := ((List.range 32).filter fun l => lnkAt l == p).foldl (fun d l => if linkState l d = 0 then d else linkDown l 1 d) d
  ((List.range 24).filter fun f => fmcPos (f / 6) (f % 6) == p).foldl (fun d f =>
    (List.range 4).foldl (fun d j => failChannel (24 * (f / 6) + 4 * (f % 6) + j) d) d) d

/-- The router carries a unit without which the device binds no work: PRS, SNP, the host port or the management domain. -/
def vitalRouter (p : Nat) : Bool := (List.range 4).any fun k => prsPos k == p || snpPos k == p

/-- The change of routing tables that waits is armed for the second Stitch from now; with a refit due at a seam it takes part in that refit's switch
(R258, R283), and where TCK takes no entry it is armed at a later Stitch. -/
def tablesArm (d : Dev) : Dev :=
  if !d.net.tablesWait || d.jobs.any (·.due) then d
  else match armCtx { n := stitchNum d + 2, org := { cls := 7, id := 0 }, shadow := tableShadow d } d with
    | some e => { e with net := { e.net with tablesWait := false } }
    | none => armRefused (stitchNum d + 2) d

/-- Retirement (R285): recorded, the ports of the neighbours that face the router go down, its units are lost, and new tables are
switched in at the second Stitch from now (DEDUCED, log entry 81). -/
def retireAct (k r : Nat) (d : Dev) : Dev :=
  let q := routerPos k r
  let p := posOf q.1 q.2
  if isRetired p d then d
  else
    let d := { d with flash := { d.flash with routers := Sparse.mark d.flash.routers p }, net := { d.net with retired := Sparse.mark d.net.retired p } }
    let d := [0, 1, 2, 3].foldl (fun d o => match neighbour p o with | some n => setEvent (posBlk n) 9 d | none => d) d
    let d := unitsLost p d
    let d := buildTables (fun x => routerUp x d) d
    let d := tablesArm { d with net := { d.net with tablesWait := true } }
    if vitalRouter p then failDevice 5 (.msh k r) d else d

end Sys2Proof.Machine
end

