-- ==== Sys2Proof/Machine/Access.lean ====
section
/-! DEFINITION. Access to the registers (R7, R36 to R40, R52 to R58, R64, R65): what a write may do, what it stores, its change-log entry,
and the action that a register's write starts. Every write of a register, whoever makes it, is one call of `regWrite`. -/

namespace Sys2Proof.Machine

/-! ### Denials (R56 to R58, R107, R285) -/

/-- A denial under R58: the block latches PERM_DENIED and the change log records the attempt. -/
def denyAt (armed : Bool) (org : Org) (b : Blk) (addr val : Nat) (d : Dev) : Dev :=
  logDenied armed org addr (regVal b (regOff addr) d) val cPermDenied (latch b cPermDenied d)

/-- Registers with fields that the Marker maintains by writes (R237, R283, R503). -/
def markerField (b : Blk) (o : Nat) : Bool :=
  match b with
  | .msh _ _ => o == MSH_RT || o == MSH_TBL
  | .pci => o == PCI_GRANT || o == PCI_GRANT_BASE || o == PCI_GRANT_LEN || o == PCI_VF4BASE
  | _ => false

def locked (b : Blk) (d : Dev) : Bool := rdBit b R_WPERM 31 d

def rwlOnly (s : RegSpec) : Bool := s.rwl != 0 && s.rw == 0 && s.w1c == 0 && s.wo == 0

/-- WPERM as it counts for a write: while the block is in a reset, the copy that the management domain keeps and reloads (R59)
(DEDUCED, log entry 135). -/
def wpermNow (b : Blk) (d : Dev) : Nat :=
  if inReset b d then (d.wperm.find? fun p => p.1 == blkBase b).elim (rd b R_WPERM d) (·.2) else rd b R_WPERM d

/-- The class may not write here. -/
def barred (org : Org) (b : Blk) (o : Nat) (d : Dev) : Bool :=
  if org.cls = 8 || (org.cls = 7 && markerField b o) then false
  else if o = R_WPERM then !(org.cls == 0 || org.cls == 5)
  else !bit (wpermNow b d) org.cls

/-- Registers that refuse class 2 (R107, R485) (DEDUCED, log entry 129). -/
def closedToVf (b : Blk) (o : Nat) : Bool :=
  match b with
  | .arr _ => decide (ARR_REPAIR_ROW0 ≤ o) && decide (o ≤ ARR_REPAIR_COL3)
  | .lmm _ => o == ECC_INJ
  | _ => false

/-- R58: the write is denied. -/
def denied (org : Org) (b : Blk) (o view v : Nat) (s : RegSpec) (d : Dev) : Bool :=
  barred org b o d || (locked b d && rwlOnly s) || (org.cls == 2 && closedToVf b o) ||
    (match b with | .msh _ _ => o == MSH_CFG && view == 0 && bit v 8 && org.cls != 0 | _ => false)

/-! ### Writes that are ignored and logged with the denied flag -/

def anyFramed (d : Dev) : Bool := rd64 .tck TCK_FRAME_EN_LO d != 0

/-- The stream set and the offset in it of a sequencer's register. -/
def streamAt (c : CoreRef) (o : Nat) : Option (Nat × Nat) :=
  if 0x100 ≤ o && o < 0x100 + 0x80 * nStreams c then some ((o - 0x100) / 0x80, o % 0x80) else none

/-- R190, R217, R252, R280, R300, R374: the register takes no write now. -/
def frozen (b : Blk) (o : Nat) (armed : Bool) (d : Dev) : Bool :=
  match b with
  | .seq c => match streamAt c o with
    | some (n, q) => [S_HEAD_LO, S_HEAD_HI, S_COUNT_LO, S_COUNT_HI, S_SREG_LO, S_SREG_HI].contains q && streamOn c n d
    | none => false
  | .tck => (o == TCK_LEN || o == TCK_GUARD) && !armed && anyFramed d
  | .prs 0 => decide (PRS_BKT_LO ≤ o) && decide (o ≤ PRS_DG_CFG) && o != PRS_LSCFG && bit (prsR (rdF b PRS_CTX_SEL 0 6 d) PRS_CTL d) 0
  | .msh _ _ =>
    (o == MSH_RT && rdBit b MSH_RT_SEL 8 d == rdBit b MSH_TBL 0 d) || ((o == MSH_RT || o == MSH_TBL) && isSafe b d && !armed)
  | _ => false

/-! ### What is stored -/

/-- A value outside its range stores another. -/
def fixF (lo len bad : Nat) (ok : Nat → Bool) (v : Nat) : Nat := if ok (bits v lo len) then v else putBits v lo len bad
def min1 (lo len v : Nat) : Nat := fixF lo len 1 (· != 0) v
def within (lo hi n : Nat) : Bool := decide (lo ≤ n) && decide (n ≤ hi)

/-- The caps of R452: at least 1,200 W and at most the sustained rating. -/
def clampCap (w : Nat) (d : Dev) : Nat := if w < 1200 then 1200 else min w (rdF .pwr PWR_RATING 0 16 d)

/-- The value that a register stores for a value written (the register tables). -/
def normReg (b : Blk) (o v : Nat) (d : Dev) : Nat :=
  let ecc (scrub : Bool) : Nat :=
    if o = ECC_CFG then min1 0 16 (min1 16 16 v) else if o = ECC_SCRUB && scrub then min1 16 16 v else v
  match b with
  | .arr _ => if o = ARR_CFG then fixF 0 2 0 (· < 2) v else v
  | .lmm c => if o = LMM_ARB && isMatrix c then min1 0 6 v else ecc false
  | .nsc _ _ | .fmc _ _ => ecc true
  | .seq c =>
    if o = SEQ_SB_CFG then min1 0 16 v
    else match streamAt c o with
      | some (_, q) => if q = S_SIZE then fixF 0 5 12 (within 12 22) v else v
      | none => v
  | .tck =>
    if o = TCK_LEN then fixF 0 15 1600 (within 400 25600) v
    else if o = TCK_GUARD then fixF 0 7 30 (within 10 100) v
    else if o = TCK_HOLD then fixF 16 14 10000 (within 1 10000) v
    else if o = TCK_SEAM then min1 0 4 (min1 8 8 v)
    else v
  | .mrk => if o = MRK_CFG then min1 0 16 v else v
  | .lnk _ _ =>
    if o = LNK_CFG then min1 8 8 (min1 16 16 v)
    else if o = LNK_VCFG then min1 0 12 (min1 12 12 v)
    else if o = LNK_VLOG_SEL then fixF 8 4 0 (within 0 11) v
    else v
  | .fab =>
    if o = FAB_CFG || o = FAB_MC_CFG then min1 0 16 v
    else if o = FAB_CMAP_CTL then fixF 1 11 1024 (within 0 1024) (min1 1 11 v)
    else v
  | .msh _ _ =>
    if o = MSH_RT then fixF 0 3 4 (within 0 4) v
    else if o = MSH_RT_SEL then fixF 0 8 0 (within 0 191) v
    else if o = MSH_PORT_SEL then fixF 0 4 0 (within 0 9) v
    else v
  | .prs _ => if o = PRS_FENCE_CNT then min1 0 16 v else if o = PRS_DG_CFG then fixF 0 3 0 (within 0 4) v else v
  | .snp _ =>
    if o = SNP_FEED_LEN then fixF 0 13 4096 (within 0 4096) v
    else if o = SNP_AXES then fixF 0 3 0 (within 0 4) (fixF 8 3 0 (within 0 4) (min1 16 8 v))
    else v
  | .rst | .rstd _ =>
    if o = RST_WDOG then min1 0 16 v else if o = RST_CFG then min1 0 8 (min1 8 8 (min1 16 8 (min1 24 8 v))) else v
  | .pwr =>
    if o = PWR_CAP_HOST then putBits v 0 16 (clampCap (bits v 0 16) d)
    else if o = PWR_SAG then fixF 0 10 620 (within 580 660) v
    else if o = PWR_TAPE_CFG then fixF 0 3 4 (· != 0) v
    else if o = PWR_THERM then fixF 0 8 95 (within 80 105) v
    else if o = PWR_RAIL_SEL then fixF 0 6 0 (within 0 49) v
    else v
  | .age =>
    if o = AGE_CFG then min1 0 16 v
    else if o = AGE_TARGET then fixF 8 8 10 (· < bits v 0 8) v
    else v
  | .log => if o = LOG_HSIZE then fixF 0 5 16 (within 12 21) v else if o = LOG_HWM then min1 0 21 v else v
  | .pci =>
    let low := 2 ^ d.host.bar4 - 1
    if o = PCI_BAR4_BASE_LO then v - (v &&& low) else if o = PCI_BAR4_BASE_HI then v - (v &&& low / 2 ^ 32) else v
  | _ => v

/-- The bits a write stores, by view (R37): `old` the value read, `v` the value written, `m` the bits it may store. -/
def viewed (view old v m : Nat) : Nat :=
  match view with
  | 0 => v &&& m
  | 1 => (old ||| v) &&& m
  | 2 => old &&& m &&& (all32 - v % 2 ^ 32)
  | _ => (old ^^^ v) &&& m

/-- FAULT cleared (R46), and PARITY_STAT.MISMATCH cleared (R48): COUNT restarts, REG stays. -/
def clearFault (b : Blk) (d : Dev) : Dev := wr b R_FAULT 0 d
def clearMismatch (b : Blk) (d : Dev) : Dev := wrBit b R_PARITY 0 false (wrF b R_PARITY 16 8 0 d)

/-- CTRL as it is kept (R55, R214): in the safe state with a mismatch or a fault latched the block stays disabled and fenced; a block in the
miss table stays fenced. -/
def ctrlKept (b : Blk) (d : Dev) : Dev :=
  if isSafe b d && (rdBit b R_PARITY 0 d || faultValid b d) then wrF b R_CTRL 0 2 2 d
  else if missListed b d then wrBit b R_CTRL 1 true d
  else d

/-- The store of a write: the RW fields, and the RWL fields before the lock, by the view; the W1C fields in the normal view (R37, R46, R48,
R49). A register the write has no field in stays as it is. -/
def regStore (b : Blk) (o view v : Nat) (s : RegSpec) (d : Dev) : Dev :=
  let key := accKey b o d
  let m := s.rw ||| (if locked b d then 0 else s.rwl)
  let w := if view = 0 then v &&& s.w1c else 0
  let raw := rdKey d key
  let d :=
    if m = 0 && w = 0 then d
    else if (o = TCK_NUM_LO || o = TCK_NUM_HI) && b = .tck && (!rdBit .tck TCK_CFG 0 d || anyFramed d) then d
    else
      let put := normReg b o (viewed view (shown b o raw d) v m) d
      let d := wrKey key ((raw &&& (all32 - m)) ||| (put &&& m)) d
      let d := wrKey key (rdKey d key &&& (all32 - w)) d
      if view = 0 && m != 0 then { d with parityBad := Sparse.unmark d.parityBad key } else d
  if o = R_EVENT then
    let d := if bit w 0 then clearFault b d else d
    if bit w 1 then clearMismatch b d else d
  else if o = R_FAULT && w != 0 then clearFault b d
  else if o = R_PARITY && w != 0 then clearMismatch b d
  else if o = R_CTRL then ctrlKept b d
  else d

/-! ### What a write starts -/

/-- Selected generator lane of a core: half of its counter written (R143). -/
def laneWrite (c : CoreRef) (sel half v : Nat) (d : Dev) : Dev :=
  let l := rd (if isMatrix c then .vec c else .seq c) sel d
  modCore c (fun x =>
    let n := putBits (laneCtr x l) (32 * half) 32 v
    { x with ctr := Sparse.set ctrInit x.ctr l ((n + 2 ^ 64 - x.ctrAll % 2 ^ 64) % 2 ^ 64) }) d

/-- The generator registers of a vector unit or a vector core, `o` counted from its RNG_CTL (R142, R148, R149). -/
def rngAct (c : CoreRef) (base o v : Nat) (d : Dev) : Dev :=
  let b : Blk := if isMatrix c then .vec c else .seq c
  if o = base + 8 then rngSeedOp c (rd64 b (base + 4) d) d
  else if o = base + 0x10 then laneWrite c (base + 0xC) 0 v d
  else if o = base + 0x14 then laneWrite c (base + 0xC) 1 v d
  else d

/-- A stream set's registers (R155, R190). R190 states the check while ENABLE = 1 for BASE and SIZE; a half of TAILADDR written then is checked in
the same way (DESIGN CHOICE, log entry 151). -/
def streamAct (c : CoreRef) (n q old wo : Nat) (d : Dev) : Dev :=
  let on := streamOn c n d
  if q = S_CTL then
    let d := if on && !bit old 0 then streamEnabled c n d else d
    if bit wo 1 then streamResumed c n d else d
  else if q = S_BASE_HI then streamRebased c n d
  else if (q = S_BASE_LO || q = S_SIZE || q = S_TAILADDR_LO || q = S_TAILADDR_HI) && on then streamCheck c n d
  else d

/-- A miss entry is released (R214) (DEDUCED, log entry 69). -/
def levelEntry (i : Nat) (d : Dev) : Dev :=
  if bit (rdB .tck TCK_MISS_INFO i d) 8 then
    wrF .tck TCK_MISS_CNT 0 6 (rdF .tck TCK_MISS_CNT 0 6 d - 1) (wrB .tck TCK_MISS i 0 (wrB .tck TCK_MISS_INFO i 0 d))
  else d

/-- Firmware names another parent: holdover ends (R198). -/
def parentAct (old : Nat) (d : Dev) : Dev :=
  if bits old 0 5 = rdF .tck TCK_PARENT 0 5 d then d else holdoverEnds d

/-- GO (R212, R219). The lowest free entry is taken. -/
def armGoAct (org : Org) (d : Dev) : Dev :=
  if isSafe .tck d then d
  else
    let n := rd64 .tck TCK_ARM_NUM_LO d
    let ps := d.tck.building
    let late := decide (n ≤ stitchNum d + 1)
    let free := freeEntry d
    let lost := ps.any fun p => (blkOf org p.1 d).isNone
    let barred := ps.filter fun p => match blkOf org p.1 d with | some b => !allows b org.cls d | none => false
    let d := armDiscardAct d
    let d := wrBit .tck TCK_ARM_STAT 10 (!barred.isEmpty) (wrBit .tck TCK_ARM_STAT 9 free.isNone (wrBit .tck TCK_ARM_STAT 8 late d))
    let d := if lost then latch .tck cAddressFault d else d
    let d := barred.foldl (fun d p => match blkOf org p.1 d with
      | some b => denyAt false org b ((physOffset org p.1 d).getD p.1) p.2 d
      | none => d) d
    match free with
    | some e =>
      if late || lost || !barred.isEmpty then d
      else wrF .tck TCK_ARM_STAT 16 4 e (addArmed e { n := n, org := org, pairs := ps } d)
    | none => d

/-- The registers of TCK that act (R198, R211 to R215); `v` as `regAct` has it. -/
def tckAct (org : Org) (o old wo : Nat) (v : Option Nat) (d : Dev) : Dev :=
  if o = TCK_ARM_DATA then (match v with | some x => armDataAct x d | none => d)
  else if o = TCK_ARM_CTL then
    let d := if bit wo 0 then armGoAct org d else d
    let d := if bit wo 1 then armCancelAct (rdF .tck TCK_ARM_CTL 8 4 d) d else d
    if bit wo 2 then armDiscardAct d else d
  else if o = TCK_MISS_INFO then (if bit wo 9 then levelEntry (rdF .tck TCK_MISS_SEL 0 5 d) d else d)
  else if o = TCK_PARENT then parentAct old d
  else d

/-- MRK_CTL (R252, R267, R273). -/
def mrkAct (wo : Nat) (d : Dev) : Dev :=
  let ctx := rdF .mrk MRK_CTL 0 6 d
  let d := if bit wo 8 then fitAct ctx d else d
  let d := if bit wo 9 then unbindAct ctx d else d
  if bit wo 10 then refitNowAct ctx d else d

/-- RESUME (R407): the Baste arms the entry that starts the Press and the streams at the resume Stitch. -/
def resumeAct (ctx : Nat) (d : Dev) : Dev :=
  let streams := match d.jobs.find? fun j => j.ctx == ctx with | some j => enabledStreams j.pat j.cores | none => []
  let sh := (bankKey prs0 PRS_CTL ctx, 1, 1) :: streams.map fun p => (regKey (.seq p.1) (sOff p.2 S_CTL), 1, 1)
  match armCtx { n := snp64 ctx SNP_RESUME_LO d, org := ⟨8, blkInstance snp0⟩, ctx := some ctx, shadow := sh, after := .resume ctx } d with
  | some d => d
  | none => restoreFail ctx 8 0 0 (armRefused (snp64 ctx SNP_RESUME_LO d) d)

/-- RESTORE, RELAY and REBUILD of SNP_CTL: the safe state keeps them (R422). -/
def basteActs (ctx wo : Nat) (d : Dev) : Dev :=
  if basteRuns d then
    let d := if bit wo 8 then restoreAct ctx d else d
    let d := if bit wo 11 then relayAct ctx d else d
    if bit wo 12 then rebuildAct ctx d else d
  else modSnap ctx (fun x => { x with acts := x.acts ||| (wo &&& 0x1900) }) d

/-- SNP_CTL (R402, R407, R410, R414, R415). -/
def snpAct (old wo : Nat) (d : Dev) : Dev :=
  let ctx := rdF snp0 SNP_CTX_SEL 0 6 d
  let d := basteActs ctx wo (snpCtlChecks ctx old d)
  let d := if bit wo 9 then resumeAct ctx d else d
  if bit wo 10 then snapAct ctx d else d

/-- The Bastes work again: each activity resumes where it stopped (R422). -/
def basteResume (d : Dev) : Dev :=
  if basteRuns d then
    (d.snap.map (·.1)).foldl (fun d ctx =>
      let x := getSnap ctx d
      let d := x.held.foldl (fun d h => basteSend ctx h.1 h.2.1 h.2.2.1 h.2.2.2 d) (modSnap ctx (fun x => { x with held := [], acts := 0 }) d)
      snapBegin ctx (basteActs ctx x.acts d)) d
  else d

/-- RST_FW.UPDATE (R444, R447): the new images go to all cores, held in reset for the purpose; the chunks arrive as boot broadcasts. -/
def fwUpdateAct (d : Dev) : Dev :=
  if isSafe .rst d || !(boundCtxs d).isEmpty then d
  else (allCores.filter fun c => coreAlive c d).foldl (fun d c =>
    modCore c (fun x => { x with fwWait := true, chunks := [] })
      { (coreBlks c).foldl (fun d b => wrBit b R_CTRL 1 false d) d with
        resets := d.resets ++ (if d.resets.contains (.core c) then [] else [.core c]) }) d

/-- The chip RST's registers that act (R436, R444, R447). -/
def rstAct (o wo : Nat) (d : Dev) : Dev :=
  if o = RST_CTX_RESET then (if bit wo 8 && !isSafe .rst d then contextReset (bits wo 0 6) 0 d else d)
  else if o = RST_FW then (if bit wo 28 then fwUpdateAct d else d)
  else d

/-- A link port's registers that act (R325): FENCE, RETRAIN and TRAIN_EN (DEDUCED, log entry 56). -/
def lnkFence (l : Nat) (old : Nat) (d : Dev) : Dev :=
  let f := fenced (lnkBlk l) d
  if f && !bit old 1 && !isSafe (lnkBlk l) d then
    (if [2, 3, 4].contains (linkState l d) then linkDown l 5 d else if linkState l d = 0 then d else setLinkState l 5 d)
  else if !f && linkState l d = 5 && !devFailed d then startTraining l d
  else d

def lnkAct (l o old wo : Nat) (d : Dev) : Dev :=
  if o = LNK_CTL then (if bit wo 0 then retrainAct l d else d)
  else if o = LNK_CFG then
    (if rdBit (lnkBlk l) LNK_CFG 0 d && !bit old 0 && linkState l d == 1 && !devFailed d then startTraining l d else d)
  else d

/-! ### Host-side errors and posted writes (R156, R507) -/

def isHost (org : Org) : Bool := org.cls == 1 || org.cls == 2

/-- The AER status bits that an error of R507 sets: the number in its own register, and both registers' bits, uncorrectable in 31:0 and
correctable in 63:32. The numbers are those of PCI Express (log entry 30). -/
def aerBits (e : TlpError) : Nat × Nat :=
  match e with
  | .malformed => (18, 2 ^ 18)
  | .flowControl => (13, 2 ^ 13)
  | .overflow => (17, 2 ^ 17)
  | .ecrc => (19, 2 ^ 19)
  | .poisonedWrite => (12, 2 ^ 12 + 2 ^ 45)
  | .unsupported => (20, 2 ^ 20)
  | .completerAbort => (15, 2 ^ 15)
  | .completionTimeout => (14, 2 ^ 14)
  | .unexpected => (16, 2 ^ 16 + 2 ^ 45)
  | .flitCrc => (0, 2 ^ 32)

/-- R507 lists the header as logged. -/
def headerLogged : TlpError → Bool
  | .completionTimeout | .flitCrc => false
  | _ => true

def hostInit (_ : Nat) : Nat := 0

/-- A host-side protocol error of a function (R507): AER status, the logged header, an entry of the error log, and EVENT.HOST_ERR. -/
def hostErr (e : TlpError) (fn : Nat) (header : List Nat) (d : Dev) : Dev :=
  let h := d.host
  let n := h.errNext % 16
  let dw (i : Nat) : Nat := if headerLogged e then header.getD i 0 % 2 ^ 32 else 0
  let d := { d with host := { h with
    aer := Sparse.set hostInit h.aer fn (Sparse.get hostInit h.aer fn ||| (aerBits e).2)
    headers := if headerLogged e then (fn, (List.range 4).map dw) :: h.headers else h.headers
    errNext := (n + 1) % 16 } }
  let d := wrB .pci PCI_ERRLOG n ((aerBits e).1 + fn % 2 ^ 14 * 256) d
  let d := (List.range 4).foldl (fun d i => wrB .pci PCI_ERRLOG (n + 16 * (i + 1)) (dw i) d) d
  setEvent .pci 9 d

/-- The same for an access whose command does not carry the header of its packet: the header is a free value. -/
def hostErrFree (e : TlpError) (fn : Nat) (d : Dev) : Dev :=
  hostErr e fn ((List.range 4).map fun i => freeAt i d) (freeSkip 4 d)

/-- The pieces of a range that one memory unit serves (R223, R230). -/
def hostPieces (k n : Nat) : List (Nat × Nat) :=
  let g := if keySpace k = 1 then 128 else 256
  if n = 0 then []
  else (List.range ((k + n - 1) / g - k / g + 1)).map fun i =>
    let lo := max k ((k / g + i) * g)
    (lo, min (k + n) ((k / g + i + 1) * g) - lo)

/-- The unit of a piece refuses it (R250, R297). -/
def pieceShut (k : Nat) (d : Dev) : Bool := let b := keyBlk k d; (refusedAt (blkPos mgmtPos b d) b false d).isSome
/-- The unit of a piece performs no operation now. -/
def pieceHeld (k : Nat) (d : Dev) : Bool := holdsReq (keyBlk k d) false d

/-- The firmware reserve (R442): offsets 0x1_7C00_0000 to 0x1_7FFF_FFFF of the near store. -/
def inReserve (k n : Nat) : Bool := decide (0x17C000000 < k + n) && decide (k < 0x180000000)

/-- One piece of a posted write. -/
def hostPiece (fn k : Nat) (bs : List Byte) (ep : Bool) (d : Dev) : Dev :=
  if windowHit k bs.length d || inReserve k bs.length then latch .pci cPermDenied d
  else if pieceShut k d then hostErrFree .completerAbort fn d
  else memWrite k bs (List.replicate bs.length ep) d

/-- A posted write of a memory window lands. -/
def hostLand (w : PostedWrite) (d : Dev) : Dev :=
  let d := if w.ep then hostErrFree .poisonedWrite w.fn d else d
  (hostPieces w.key w.data.length).foldl (fun d p => hostPiece w.fn p.1 ((w.data.drop (p.1 - w.key)).take p.2) w.ep d) d

/-- A unit of a posted write performs no operation now, so that the write waits. -/
def postedHeld (w : PostedWrite) (d : Dev) : Bool := (hostPieces w.key w.data.length).any fun p => pieceHeld p.1 d

/-- Posted writes that wait land, each after the earlier ones of its function (R156). -/
def postedGo (d : Dev) : Dev :=
  d.host.posted.foldl (fun d w =>
    if postedHeld w d || d.host.posted.any (fun x => x.fn == w.fn) then
      { d with host := { d.host with posted := d.host.posted ++ [w] } }
    else hostLand w d) { d with host := { d.host with posted := [] } }

/-- CTRL (R47, R55): the safe state may end, held work goes on, and RESET_REQ asks for its reset. -/
def ctrlAct (b : Blk) (old wo : Nat) (d : Dev) : Dev :=
  let d := leaveSafe b d
  let d := match b with
    | .lnk k i => lnkFence (8 * k + i) old d
    | .str k c i => strPump k c i d
    | .snp _ => basteResume (pumpHeld d)
    | .prs _ => pressResume (pumpHeld d)
    | .nsc _ _ | .fmc _ _ => postedGo d
    | .fab => mcWake (enginesGo (pumpHeld d))
    | _ => d
  if bit wo 2 then resetAct b d else d

/-- What a write starts beside its store: `old` the value before, `wo` the write-only bits, `v` the value written through the normal view, the one
in which write-only fields act (R37). -/
def regAct (org : Org) (b : Blk) (o old wo : Nat) (v : Option Nat) (d : Dev) : Dev :=
  if o = R_CTRL then ctrlAct b old wo d
  else if o = R_WPERM then
    (if locked b d && !bit old 31 then { d with wperm := (blkBase b, rd b R_WPERM d) :: d.wperm.filter (·.1 != blkBase b) } else d)
  else if o < 0x40 then d
  else match b with
    | .arr c => if o = ARR_QUAR && wo != 0 then quarWrite c wo d else d
    | .sct c => if o = SCT_ADVANCE && bit wo 31 then sctAdvance c (bits wo 0 6) d else d
    | .vec c => rngAct c VEC_RNG_CTL o (rd b o d) d
    | .seq c => match streamAt c o with
      | some (n, q) => streamAct c n q old wo d
      | none => if isVector c then rngAct c VCR_RNG_CTL o (rd b o d) d else d
    | .lmm _ | .nsc _ _ => if o = ECC_INJ && bit wo 0 then eccArm b d else d
    | .fmc k i =>
      if o = ECC_INJ && bit wo 0 then eccArm b d
      else if FMC_CHAN0 ≤ o && o ≤ FMC_CHAN3 then mapoutAct (24 * k + 4 * i + (o - FMC_CHAN0) / 4) d
      else d
    | .tck => tckAct org o old wo v d
    | .mrk => if o = MRK_CTL then mrkAct wo d else d
    | .msh k r =>
      if o = MSH_CFG && bit wo 8 then retireAct k r d
      else if o = MSH_TBL && rdBit b MSH_TBL 0 d != bit old 0 then let p := routerPos k r; bankTaken (posOf p.1 p.2) d
      else d
    | .lnk k i => lnkAct (8 * k + i) o old wo d
    | .fab => if o = FAB_FLOW_CTL && bit wo 0 then flowReleaseAct (rdF b FAB_FLOW_SEL 0 14 d) d else d
    | .prs 0 =>
      let ctx := rdF b PRS_CTX_SEL 0 6 d
      if o = PRS_CTL then
        let on := bit (prsR ctx PRS_CTL d) 0
        if on && !bit old 0 then pressEnabled ctx d else if !on && bit old 0 then pressDisabled ctx d else d
      else if o = PRS_TRK_ADVANCE && bit wo 31 then
        advanceTracker (trkCfg (bits wo 0 6)) (trkCur (bits wo 0 6)) (trkHist (bits wo 0 6)) d
      else d
    | .snp 0 => if o = SNP_CTL then snpAct old wo d else d
    | .rst => rstAct o wo d
    | .log =>
      if o = LOG_HACK_HI then hackAct d
      else if o = LOG_CTL then
        let d := if bit wo 0 then hashAct d else d
        if bit wo 1 then sealBegin 2 d else d
      else d
    | _ => d

/-! ### One write -/

/-- The entry of a write (R487). -/
def logWrite (org : Org) (a old new : Nat) (armed : Bool) (d : Dev) : Dev :=
  appendLog { cls := org.cls, id := org.id, addr := a, old := old, new := new, armed := armed, alias_ := viewOf a != 0 } d

/-- A second FIT for a context whose request still waits (R252): logged with the denied flag (DEDUCED, log entry 127). -/
def fitAgain (b : Blk) (o wo : Nat) (d : Dev) : Bool :=
  decide (b = .mrk) && o == MRK_CTL && bit wo 8 && fitPending (rdF .mrk MRK_CTL 0 6 d) d

/-- A write of register `s` of block `b` that nothing denies: stored, its action begun, and logged; one that the register takes no notice of is
logged as denied. -/
def regTake (armed : Bool) (org : Org) (b : Blk) (s : RegSpec) (a view v : Nat) (d : Dev) : Dev :=
  let o := regOff a
  if frozen b o armed d then logDenied armed org a (regVal b o d) v 0 d
  else if view != 0 && d.parityBad.contains (accKey b o d) then
    parityFound b o (logWrite org a (regVal b o d) (regVal b o d) armed d)
  else
    let old := regVal b o d
    let wo := if view = 0 then v &&& s.wo else 0
    let d := regStore b o view v s d
    regAct org b o old wo (if view = 0 then some v else none)
      (if fitAgain b o wo d then logDenied armed org a old v 0 d else logWrite org a old (regVal b o d ||| wo) armed d)

/-- A write of a 32-bit register at a physical offset of BAR0, view bits included; `armed` for an armed apply, which is a write through the normal
view (R213). -/
def regWrite (armed : Bool) (org : Org) (a v : Nat) (d : Dev) : Dev :=
  match presentBlk a d with
  | none => d
  | some b =>
    let o := regOff a
    let view := if armed then 0 else viewOf a
    match regSpec b o with
    | none => d
    | some s =>
      if inReset b d && o != R_CTRL then
        appendLog { cls := org.cls, id := org.id, addr := a, old := if o < 0x40 || o = R_WPERM then regVal b o d else 0, new := v,
                    inReset := true, alias_ := view != 0 } d
      else if denied org b o view v s d then denyAt armed org b a v d
      else regTake armed org b s a view v d

/-- The function of a host access. -/
def fnOf (org : Org) : Nat := if org.cls = 2 then org.id else 0

/-- Widths and alignments that a block serves (R40). -/
def widthOk (a len : Nat) : Bool := (len == 4 || len == 8) && a % len == 0

/-- The context whose logical cores an origin's window shows (R64). -/
def lcwCtx (org : Org) (d : Dev) : Nat := if org.cls = 2 then org.id - 1 else rdF .pci PCI_LCW 0 6 d
def inLcw (a : Nat) : Bool := decide (0x0C000000 ≤ a) && decide (a < 0x0E000000)

/-- A VF reaches only the logical cores of its own context (R65). -/
def vfRefused (org : Org) (a : Nat) (d : Dev) : Bool := org.cls == 2 && (!inLcw a || (physOffset org a d).isNone)

/-- The access waits for a refit that changes its logical core's binding (R64). -/
def lcwWaits (org : Org) (a : Nat) (d : Dev) : Bool :=
  inLcw a && d.jobs.any fun j =>
    let n := (a - 0x0C000000) / 0x20000
    j.ctx == lcwCtx org d && j.phase == 0 &&
      (match j.cores.find? fun c => c.1 == n with
       | some c => decide (boundCore j.ctx 0 n d ≠ some (coreOfKey c.2)) && (boundCore j.ctx 0 n d).isSome
       | none => (boundCore j.ctx 0 n d).isSome)

/-- A served write: of 32 bits, or of 64 as two (R40). -/
def doWrite (org : Org) (a len v : Nat) (d : Dev) : Dev :=
  let one (x y : Nat) (d : Dev) : Dev := match physOffset org x d with | some p => regWrite false org p y d | none => d
  if len = 8 then one (a + 4) (v / 2 ^ 32 % 2 ^ 32) (one a (v % 2 ^ 32) d) else one a (v % 2 ^ 32) d

/-- REGISTER_WRITE: a write access from an origin. -/
def writeAccess (org : Org) (a len v : Nat) (d : Dev) : Dev :=
  if isHost org && (!hostUp d || !hostServed d || (org.cls == 2 && isSafe .pci d)) then d
  else if vfRefused org a d && !lcwWaits org a d then hostErrFree .unsupported (fnOf org) (latch .pci cPermDenied d)
  else if !widthOk a len then
    (if isHost org then hostErrFree .completerAbort (fnOf org) (latch .pci cAddressFault d) else { d with out := .regRefused cAddressFault :: d.out })
  else if lcwWaits org a d then { d with lcwHeld := d.lcwHeld ++ [(org, a, len, some v)] }
  else doWrite org a len v d

/-- The offset at which an origin reaches a block's register: a VF goes through the logical-core window (R64, R65). -/
def addrFor (org : Org) (b : Blk) (o : Nat) (d : Dev) : Nat :=
  match (if org.cls = 2 then blkCore b else none) with
  | some c => match (List.range 256).find? fun n => boundCore (lcwCtx org d) 0 n d == some c with
    | some n => 0x0C000000 + n * 0x20000 + (blkBase b + o - coreBase c)
    | none => blkBase b + o
  | none => blkBase b + o

/-- A write command that is a row of its own: the same access at a block's register. -/
def cmdWrite (org : Org) (b : Blk) (o v : Nat) (d : Dev) : Dev := writeAccess org (addrFor org b o d) 4 v d

/-- The same with bits that the command's name says are written as 1. -/
def cmdSet (org : Org) (b : Blk) (o v set : Nat) (d : Dev) : Dev := cmdWrite org b o (v ||| set) d

end Sys2Proof.Machine
end

