-- ==== Sys2Proof/Machine/Boot.lean ====
section
/-! DEFINITION. The start of the device (R423 to R432, R442, R472 to R478, R480, R482, R490, R494), the resets of the whole chip (R426, R435,
R440, R449) and the module's supply (R459, R499, R509 to R511). -/

namespace Sys2Proof.Machine

/-! ### What a chip reset and a loss of power leave -/

/-- Registers of the module reset domain (R509): the I3C target, the deposits and the pin-event records. -/
def moduleReg (key : Nat) : Bool :=
  match keyBlock key with
  | some .pci => [PCI_I3C, PCI_GLITCH, PCI_PINLOG, PCI_PINLOG_NUM_LO, PCI_PINLOG_NUM_HI, PCI_PIN_STRAY].contains (regOff key)
  | _ => false

/-- The whole chip is reset (R435): resets that run are cut off, to be listed in its record (R27); the flash, the module's own state and what the outside has been given stay. THROTTLE_n asserted at this
point puts the floor in force from the first period (R511). -/
def chipInit (cause : Nat) (d : Dev) : Dev :=
  let e : Dev :=
    { flash := d.flash, regs := d.regs.filter (fun p => moduleReg p.1), out := d.out, free := d.free,
      mod_ := { d.mod_ with start := if d.mod_.start = 1 then 1 else 2, signalled := 0, cut := d.mod_.cut + d.runs.length },
      host := { pinNext := d.host.pinNext },
      sel := { debug := d.sel.debug, debugNext := d.sel.debugNext, userKeys := d.sel.userKeys },
      tape := { throttle := !pinHigh 1 d, sag := d.tape.sag, cv := d.tape.cv, watts := d.tape.watts } }
  let e := wrBit .pwr R_STATUS 10 d.tape.sag (wrBit .pwr R_STATUS 9 (!pinHigh 1 d) e)
  if d.mod_.start = 1 then e else wrF .rst RST_BOOT 8 3 cause e

/-- CHIP_RESET (R426): with the rails in regulation (DEDUCED, log entry 90). -/
def chipReset (cause : Nat) (d : Dev) : Dev := if d.mod_.rails then chipInit cause d else d

/-- PGOOD follows the rails (R511). -/
def pgood (on : Bool) (d : Dev) : Dev := { d with out := .pin 0 on :: d.out }

/-- The rails go off: nothing on the module keeps its state but the flash (R29). -/
def railsOff (trip : Bool) (d : Dev) : Dev :=
  pgood false
    { flash := d.flash, out := d.out, free := d.free,
      mod_ := { rails := false, tripped := trip, trayHeld := d.mod_.trayHeld, start := 0, pins := d.mod_.pins } }

/-- POWER_ENABLE (R499, R510): PWR_EN has been high for its filter time and the rails are in regulation. -/
def powerEnable (d : Dev) : Dev :=
  let d := setPin 0 true d
  if d.mod_.rails || d.mod_.tripped then d
  else
    pgood true
      { flash := d.flash, out := d.out, free := d.free, tape := { throttle := !pinHigh 1 d },
        mod_ := { trayHeld := !pinHigh 2 d, start := 1, pins := d.mod_.pins } }

/-- POWER_DISABLE (R510). -/
def powerDisable (d : Dev) : Dev :=
  let d := setPin 0 false d
  if d.mod_.rails then railsOff false d else modMod (fun m => { m with tripped := false }) d

/-- TRAY_RESET_ASSERT and TRAY_RESET_RELEASE (R440, R510). -/
def trayAssert (d : Dev) : Dev := modMod (fun m => { m with trayHeld := true }) (chipReset 1 (setPin 2 false d))
def trayRelease (d : Dev) : Dev := modMod (fun m => { m with trayHeld := false }) (setPin 2 true d)

/-- SUPPLY_RESET and its release (R449). -/
def supplyReset (d : Dev) : Dev := modMod (fun m => { m with supplyHeld := m.rails }) (chipReset 3 d)
def supplyRelease (d : Dev) : Dev := modMod (fun m => { m with supplyHeld := false }) d

/-- OVER_VOLTAGE (R449). -/
def overVoltage (d : Dev) : Dev := if d.mod_.rails then railsOff true d else d

/-- THERMAL_SAMPLE (R459). -/
def thermalSample (hot : Nat) (d : Dev) : Dev :=
  if !d.mod_.rails then d
  else if 115 ≤ hot then railsOff true d
  else
    let warn := rdF .pwr PWR_THERM 0 8 d
    let d := wrF .pwr PWR_THERM 24 8 (sat 255 hot) d
    let d := if warn ≤ hot && !d.tape.warned then latch .pwr cThermalWarn (modTape (fun t => { t with warned := true }) d)
      else if hot + 5 < warn then modTape (fun t => { t with warned := false }) d
      else d
    let on := decide (105 ≤ hot) || (d.tape.hot && decide (100 ≤ hot))
    wrBit .pwr R_STATUS 11 on (modTape (fun t => { t with hot := on }) d)

/-- RAIL_RESET (R451), with the rails numbered as log entry 43 says: 32 cluster rails, 4 mesh, 8 SRAM dies, 4 far memory, SerDes, management. -/
def railReset (n : Nat) (d : Dev) : Dev :=
  if n < 32 then clusterResetAct (n / 8) (n % 8) 6 d
  else if n < 36 then dieResetAct (n - 32) 6 d
  else if n < 44 then dieResetAct ((n - 36) / 2) 6 d
  else if n < 48 then dieResetAct (n - 44) 6 d
  else if n < 50 then chipReset 3 d
  else d

/-! ### Step 1: the Selvedge and the change log -/

/-- GLB_GRADE as the fuses give it (R34). -/
def gradeWord (fz : FuseSt) : Nat :=
  let s := fz.grade % 4 == 1
  fz.grade % 4 + (if s then 6 else 8) * 256 + (if s then 6 else 12) * 4096

/-- What the fuses give the registers (R34, R448, R476, R479, R495). -/
def fromFuses (fz : FuseSt) (d : Dev) : Dev :=
  let s := fz.grade % 4 == 1
  let d := wr .glb GLB_GRADE (gradeWord fz) d
  let d := (List.range 64).foldl (fun d i => wrB .sel SEL_CTR i ((fz.counters[i]?).getD 0) d) (wr64 .sel SEL_SERIAL_LO fz.serial d)
  let d := modSel (fun x => { x with owner := fz.owners.getLast? }) (wr .sel SEL_OWNER fz.owners.length d)
  let sus := if s then 2900 else 3600
  let peak := if s then 3400 else 4200
  let d := wr .pwr PWR_RATING (sus + peak * 65536) d
  let d := wr .pwr PWR_BUDGET sus (wr .pwr PWR_CAP_TRAY sus (wr .pwr PWR_CAP_HOST sus d))
  let d := wr .pwr PWR_PLAN (if s then 698 + 63 * 65536 else 788 + 84 * 65536) d
  wr .pwr PWR_BUCKET (if s then 5000 else 6000) (modTape (fun t => { t with bucket := if s then 5000000 else 6000000 }) d)

/-- A cluster's spare slot, and the slots fused off: two on the QV9-S, none on the QV9-M (R3, R9). -/
def spareSlot (fz : FuseSt) (q : Nat) : Nat := (fz.spares[q]?).getD 8 % 9
def fusedSlots (fz : FuseSt) (q : Nat) : List Nat :=
  if fz.grade % 4 = 1 then
    let p := (fz.fused[q]?).getD (0, 0)
    let l := (List.range 9).filter (· != spareSlot fz q)
    let a := l.getD (p.1 % 8) 0
    [a, (l.filter (· != a)).getD (p.2 % 7) 0]
  else []
def isFused (fz : FuseSt) (c : CoreRef) : Bool := isMatrix c && (fusedSlots fz (c.die * 8 + c.cl)).contains c.slot

/-- The slots of the clusters (R9, R522). -/
def slotsFromFuses (fz : FuseSt) (d : Dev) : Dev :=
  (allCores.filter isMatrix).foldl (fun d c =>
    wrF (.clu c.die c.cl) CLU_SLOT (3 * c.slot) 3
      (if isFused fz c then 4 else if c.slot = spareSlot fz (c.die * 8 + c.cl) then 1 else 0) d) d

def isZeroised (fz : FuseSt) : Bool := fz.secret.all fun b => decide (b = 255)

/-- The Selvedge starts (R472, R475, R476, R482, R483): the debug lock takes effect, the self-tests run, and the identity key is derived
where it may be. -/
def selStart (fails : Nat) (fz : FuseSt) (d : Dev) : Dev :=
  let d := modSel (fun x => { x with debug := x.debugNext.getD x.debug, debugNext := none, zeroised := isZeroised fz }) (clearRam d)
  let d := selfTests fails d
  if d.sel.error || d.sel.debug || d.sel.zeroised then d
  else modSel (fun x => { x with idKey := some (Keccak.shake256 (toBytes 4 1 ++ fz.secret) 57) }) d

/-- The checks of a management image against the fused root keys (R477, R478). -/
def mgmtCheck (m : MgmtImg) (fz : FuseSt) (d : Dev) : Nat :=
  let keys : List VKey := if fz.roots.any fun r => decide (r.1 = keyHash m.rootKey) && !r.2 then [⟨m.rootKey, 2⟩] else []
  objCheckWith keys 1 m.obj d

/-- An image is refused (R424). With the Selvedge in its error state no check is made, and the reason recorded is free. -/
def mgmtRefused (r : Nat) (o : Option SignedObj) (d : Dev) : Dev :=
  let k := (o.map (·.kind)).getD 1
  let c := (o.map (·.ctr)).getD 255
  let d := if r = 0 then freeNext (authFail k (freeNow d % 16) c d) else authFail k r c d
  wrBit .rst RST_BOOT 5 true d

/-- The first image that passes is adopted (R424, R476); none where both are refused. -/
def mgmtBoot (fz : FuseSt) (d : Dev) : Dev × Bool :=
  let go (i : Nat) (d : Dev) : Dev × Bool :=
    match d.flash.mgmt[i]? with
    | none => (mgmtRefused 1 none d, false)
    | some m =>
      let r := if d.sel.error then 0 else mgmtCheck m fz d
      if r = 0 && !d.sel.error then
        (wrBit .rst RST_BOOT 4 (i == 1)
          (modSel (fun x => { x with vkeys := m.keys.map (fun k => ⟨k.1, k.2⟩), mgmt := m.obj.digest, mgmtVer := m.version }) d), true)
      else (mgmtRefused r (some m.obj) d, false)
  let x := go 0 d
  if x.2 then x else go 1 x.1

/-- The running hash over the entries of a seal record (R489, R493). -/
def sealRun (k : Nat) (h : List Byte) : List (List Byte) → List Byte → Nat → List Byte
  | [], buf, _ => Keccak.shake256 (toBytes 8 k ++ h ++ buf) 32
  | e :: es, buf, n =>
    if n = 256 then sealRun (k + 1) (Keccak.shake256 (toBytes 8 k ++ h ++ buf) 32) es e 1
    else sealRun k h es (buf ++ e) (n + 1)

/-- A complete record that does not verify (R494, reason 2). -/
def sealBad (fz : FuseSt) (x : SealRec) : Bool :=
  x.done && (decide (sealRun (x.first / 256) x.h x.entries [] 0 ≠ x.r) || !Config.ed448Verify (Config.certKey fz.certs) (sealBytes x) x.sig)

/-- A start opens a new chain (R489, R490), and the seals that the flash holds are checked (R494). -/
def logStart (fz : FuseSt) (d : Dev) : Dev :=
  let n := d.flash.chain + 1
  let d := { d with flash := { d.flash with chain := n },
                    log := { h0 := Keccak.shake256 (toBytes 8 n ++ toBytes 8 fz.serial) 32 } }
  let d := wr64 .log LOG_CHAIN_LO n (wr64 .log LOG_SEQ_LO 0 (wr64 .log LOG_HWR_LO 0 d))
  let d := sealCount (match d.flash.seals.head? with | some x => wrF .log LOG_SEAL 8 6 x.slot d | none => d)
  let d := match d.flash.seals.head? with | some x => if x.done then d else sealFail 1 d | none => d
  let d := if d.flash.seals.any (sealBad fz) then sealFail 2 d else d
  let old := match d.flash.seals.find? (·.done) with | some x => x.slot | none => 0xFFFFFFFF
  appendLog { cls := 8, id := 0xFFFF, addr := blkBase .rst + RST_BOOT, old := old, new := rd .rst RST_BOOT d, boot := true } d

/-! ### Firmware's writes -/

def fwOrg : Org := ⟨0, 0⟩
def fwWrite (b : Blk) (o v : Nat) (d : Dev) : Dev := regWrite false fwOrg (blkBase b + o) v d

/-- The deposited device number is applied (R32, R513), and the registers that firmware sets before the lock. -/
def firmwareSets (f : BootFindings) (d : Dev) : Dev :=
  let v := rd .pci PCI_I3C d
  let d := if bit v 23 then fwWrite .glb GLB_DEVNUM (bits v 8 15 + 2 ^ 31) d else d
  f.writes.foldl (fun d w => regWrite false fwOrg w.1 w.2 d) d

/-- WPERM.ALLOW as locked (R485); class 4 while the debug port is unlocked. -/
def allowOf (b : Blk) : Nat :=
  match b with
  | .sel | .mgc => 0x021
  | .log | .pci | .dbg | .glb | .clk | .age | .mrk | .rst => 0x023
  | .pwr => 0x063
  | .clu _ _ | .str _ _ _ => 0x1AB
  | .cor _ | .seq _ | .arr _ | .fed _ | .vec _ | .txb _ | .sct _ | .lmm _ => 0x1AF
  | .rstd _ => 0x023
  | _ => 0x12B

def lockVal (b : Blk) (d : Dev) : Nat := (allowOf b ||| (if d.sel.debug then 0x10 else 0)) + 2 ^ 31

/-- The block takes part in the start: its window is present. -/
def bootBlk (d : Dev) (b : Blk) : Bool := match blkCore b with | some c => !slotAbsent c d | none => true

/-- The block works: its core is not failed. -/
def bootAlive (d : Dev) (b : Blk) : Bool := match blkCore b with | some c => coreAlive c d | none => true

/-- Firmware enables the blocks and opens their ports (log entry 8) (DEDUCED, log entry 96). -/
def enableAll (d : Dev) : Dev :=
  (allBlks.filter fun b => bootBlk d b && bootAlive d b).foldl (fun d b => fwWrite b R_CTRL 1 d) d

/-- Every block is locked (R57, R485); the management domain keeps the copies, those of spare slots too (R59). -/
def lockAll (d : Dev) : Dev :=
  let d := (allBlks.filter (bootBlk d)).foldl (fun d b => fwWrite b R_WPERM (lockVal b d) d) d
  { d with wperm := allBlks.map fun b => (blkBase b, lockVal b d) }

/-- The configuration as locked (R480). -/
def configBytes (d : Dev) : List Byte :=
  (allBlks.filter (bootBlk d)).flatMap fun b =>
    (sortLe (fun x y => decide (x.off ≤ y.off)) ((tabHeader b ++ blkTable b).filter (·.rwl != 0))).flatMap fun s =>
      toBytes 4 (blkBase b + s.off) ++ toBytes 4 (regVal b s.off d)

/-! ### Steps 2 to 4: mesh, memories, links -/

def applyRepRec (r : RepRec) (d : Dev) : Dev :=
  let c : CoreRef := ⟨r.block / 16384, r.block / 1024 % 16, r.block / 64 % 16⟩
  if !r.ok then bistFail .rst 5 0 d
  else if (r.kind = 9 || r.kind = 10) && coreOk c then markFailed c d
  else d

/-- Router BIST and retirements (R285, R429), and the tables (R281). -/
def meshStart (f : BootFindings) (d : Dev) : Dev :=
  let bad := f.badRouters.filter fun q => blkOk (.msh q.1 q.2)
  let d := bad.foldl (fun d q => bistFail (.msh q.1 q.2) 0 0 d) d
  let ps := bad.map fun q => posOf (routerPos q.1 q.2).1 (routerPos q.1 q.2).2
  let rs := ps.foldl Sparse.mark d.flash.routers
  let fm := ((List.range 24).filter fun x => rs.contains (fmcPos (x / 6) (x % 6))).flatMap fun x => (List.range 4).map fun j => 4 * x + j
  let d := { d with flash := { d.flash with routers := rs, mapout := fm.foldl Sparse.mark d.flash.mapout }, net := { d.net with retired := rs } }
  let d := rs.foldl (fun d p => unitsLost p d) d
  if rs.isEmpty then d
  else
    let up (p : Nat) : Bool := routerUp p d
    switchTables up (buildTables up d)

/-- The channels whose positions are populated (R227). -/
def populated (d : Dev) : List Nat :=
  (List.range 96).filter fun g => !gradeS d || [0, 1, 3].contains (g / 4 % 6)

/-- Far memory (R227, R230, R231, R427): failed channels are recorded, and the others ranked. -/
def farStart (f : BootFindings) (d : Dev) : Dev :=
  let d := f.badFmcs.foldl (fun d q => if blkOk (.fmc q.1 q.2) then bistFail (.fmc q.1 q.2) 0 0 d else d) d
  let chans := f.badFmcs.flatMap fun q => (List.range 4).map fun j => 24 * q.1 + 4 * q.2 + j
  let d := (f.badChannels.filter (· < 96)).foldl (fun d g => bistFail (chanBlk g) 3 g d) d
  let out := (chans ++ f.badChannels).foldl Sparse.mark d.flash.mapout
  let here := populated d
  let live := here.filter fun g => !out.contains g
  let d := { d with flash := { d.flash with mapout := out }, farMap := live }
  let d := here.foldl (fun d g => wrF (chanBlk g) (chanReg g) 0 3 4 d) d
  live.zipIdx.foldl (fun d g => wrF (chanBlk g.1) (chanReg g.1) 8 8 g.2 (wrF (chanBlk g.1) (chanReg g.1) 0 3 2 d)) d

/-! ### Step 5: cores -/

/-- Every repair that covers the cells with at most four rows and four columns and no line without need: the first cell left open takes its
row or its column (R101). -/
def covers : Nat → List Nat → List Nat → List (Nat × Nat) → List (List Nat × List Nat)
  | 0, rs, cs, cells => if cells.any (fun x => !rs.contains x.1 && !cs.contains x.2) then [] else [(rs, cs)]
  | n + 1, rs, cs, cells =>
    match cells.find? fun x => !rs.contains x.1 && !cs.contains x.2 with
    | none => [(rs, cs)]
    | some x =>
      (if rs.length < 4 then covers n (Sparse.mark rs x.1) cs cells else []) ++
        (if cs.length < 4 then covers n rs (Sparse.mark cs x.2) cells else [])

/-- The order of R101: fewest lines, then the lowest rows, then the lowest columns. -/
def lexLe : List Nat → List Nat → Bool
  | [], _ => true
  | _ :: _, [] => false
  | a :: x, b :: y => decide (a < b) || (a == b && lexLe x y)

def repairLe (x y : List Nat × List Nat) : Bool :=
  let n := x.1.length + x.2.length
  let m := y.1.length + y.2.length
  decide (n < m) || (n == m && (if x.1 = y.1 then lexLe x.2 y.2 else lexLe x.1 y.1))

/-- The repair that R101 chooses; none where there is none. -/
def chooseRepair (cells : List (Nat × Nat)) : Option (List Nat × List Nat) :=
  match covers 8 [] [] cells with
  | [] => none
  | x :: xs => some (xs.foldl (fun b y => if repairLe b y then b else y) x)

/-- The records of an array's lines, and the number of the table chosen last. -/
def arrayRecs (c : CoreRef) (d : Dev) : List RepRec :=
  d.flash.repairs.filter fun r => r.ok && (r.kind == 1 || r.kind == 2) && r.block == blkInstance (.arr c)
def lastTable (c : CoreRef) (d : Dev) : Nat := ((arrayRecs c d).map (·.table)).foldl max 0

/-- The lines of a kind in the table recorded last for an array (R101). -/
def recordedLines (kind : Nat) (c : CoreRef) (d : Dev) : List Nat :=
  (((arrayRecs c d).filter fun r => r.kind == kind && r.table == lastTable c d).map (·.index)).foldl Sparse.mark []

/-- The repair registers take a table, and the array applies it (DEDUCED, log entry 94). -/
def loadRepair (c : CoreRef) (t : List Nat × List Nat) (d : Dev) : Dev :=
  let put (o : Nat) (ls : List Nat) (d : Dev) : Dev :=
    (List.range 4).foldl (fun d i => wr (.arr c) (o + 4 * i) (match ls[i]? with | some p => p % 256 + 0x8000 | none => 0) d) d
  applyRepairTable c (put ARR_REPAIR_COL0 t.2 (put ARR_REPAIR_ROW0 t.1 d))

/-- The array test of a slot (R101, R429): the recorded table is loaded again, and a new one chosen and recorded where it leaves a defect (DEDUCED, log entry 93). -/
def arrayTest (f : BootFindings) (c : CoreRef) (d : Dev) : Dev :=
  let known := (recordedLines 1 c d, recordedLines 2 c d)
  let cells := ((f.arrayDefects.find? fun x => decide (x.1 = c)).map (·.2)).getD []
  if cells.all fun x => known.1.contains x.1 || known.2.contains x.2 then loadRepair c known d
  else match chooseRepair cells with
    | none => failCore c (repairExhausted (.arr c) 2 0 d)
    | some t =>
      let n := lastTable c d + 1
      let put (kind : Nat) (d : Dev) (r : Nat) : Dev := addRecord { kind := kind, block := blkInstance (.arr c), index := r, table := n } d
      loadRepair c t (t.2.foldl (put 2) (t.1.foldl (put 1) d))

/-- Logic BIST and the local-memory test of a unit of a cluster (R429). -/
def unitTest (fz : FuseSt) (b : Blk) (d : Dev) : Dev :=
  let tested (c : CoreRef) : Bool := coreOk c && !isFused fz c
  match b with
  | .lmm c => if tested c then failCore c (repairExhausted b 1 0 d) else d
  | .seq c | .fed c | .vec c | .txb c | .sct c => if blkOk b && tested c then failCore c (bistFail b 0 0 d) else d
  | .str dd cc _ => if blkOk b then failCluster dd cc (bistFail b 0 0 d) else d
  | _ => d

/-- BIST of the slots, and substitution (R10, R429, R430). -/
def coreTests (f : BootFindings) (fz : FuseSt) (d : Dev) : Dev :=
  let d := ((f.badCores.filter coreOk).filter fun c => !isFused fz c).foldl (fun d c => failCore c (bistFail (.cor c) 0 0 d)) d
  let d := f.badUnits.foldl (fun d b => unitTest fz b d) d
  let d := ((allCores.filter isMatrix).filter fun c => slotState c d == 0 || slotState c d == 1).foldl (fun d c => arrayTest f c d) d
  (List.range 32).foldl (fun d q => substitute (q / 8) (q % 8) d) d

/-- The manifests and images that the Selvedge accepts go to the reserve (R442, R478). -/
def firmwareLoad (d : Dev) : Dev × List Nat :=
  [0, 1, 2].foldl (fun x ty =>
    match x.1.flash.coreFw.find? fun w => w.ty == ty with
    | none => x
    | some w =>
      let r := authObj 2 w.obj x.1
      if r.2 = 0 then
        let d := memPut (keyNear (imageAt ty)) (w.image.take 0x80000) (memPut (keyNear (manifestAt ty)) w.manifest r.1)
        (modSel (fun s => { s with core := modNth (fun _ => (w.manifest.drop 16).take 32) ty s.core }) d, x.2 ++ [ty])
      else (r.1, x.2)) (d, [])

/-- A core takes its image by boot broadcast and checks it (R443); a type without an accepted manifest starts no core (R478). -/
def coreLoad (types : List Nat) (c : CoreRef) (d : Dev) : Dev :=
  let ty := coreTy c
  if !types.contains ty then fwFail c 0 d
  else
    let d := fwPut c 0 (memBytes (keyNear (imageAt ty)) (fwLen ty d) d) d
    match badChunks c [] d with
    | k :: _ => fwFail c k d
    | [] => if imageOk c d then d else fwFail c 0 d

/-! ### The end of the start -/

/-- Bins and guards return from the newest ageing records, and the committed clock with them (R35, R461, R466). -/
def wearRestore (d : Dev) : Dev :=
  let newest (kind p : Nat) : Option Nat := (d.flash.ages.find? fun r => r.kind == kind && r.unit == p).map (·.value)
  let d := (List.range 32).foldl (fun d p =>
    let d := match newest 1 p with | some g => setAgeF p 12 4 (min 12 g) d | none => d
    match newest 2 p with | some b => setAgeF p 0 12 b d | none => d) d
  wrF .glb GLB_CLK_COMMIT 0 12 (((List.range 32).map fun p => ageBin p d).foldl min 1900) d

/-- All links begin to train: the tick links by themselves, the others by firmware (R428). -/
def linksStart (d : Dev) : Dev :=
  let d := (List.range 32).foldl (fun d l => if linkPresent l d then d else wrF (lnkBlk l) LNK_STATE 0 3 0 d) d
  let d := (List.range 32).foldl (fun d l => startTraining l d) d
  if (List.range 32).all (fun l => [0, 1, 3, 6].contains (linkState l d)) then wrBit .rst RST_BOOT 12 true d else d

/-- A start that ends in FAILED (R431): the condition is recorded, but for a device without firmware (DEDUCED, log entry 95). Where the host port
will accept requests, every block is locked before (R57). -/
def startFailed (cause : Nat) (d : Dev) : Dev :=
  setFailed cause (if cause = 1 then d else addRepair 11 0xFFFF cause 0 (if 2 < cause then lockAll d else d))

/-- The record of a chip reset, written after the restart (R446), with the resets it cut off (R27): its cause, time and length come from outside, so they are free. -/
def chipRecord (d : Dev) : Dev :=
  let x := newRecord .rst 5 0xFFFF (freeNow d % 8) d
  let d := wrB .rst RST_REC x.1 (putBits (rdB .rst RST_REC x.1 x.2) 23 4 (sat 15 d.mod_.cut)) (modMod (fun m => { m with cut := 0 }) x.2)
  let d := wrB .rst RST_REC_US x.1 (freeAt 1 d) (wrB64 .rst RST_REC_NUM_LO x.1 (freeAt 2 d + freeAt 3 d * 2 ^ 32) d)
  freeSkip 4 d

/-- READY (R423): the root is aligned at once where it follows no external edges (R197). -/
def startReady (again : Bool) (d : Dev) : Dev :=
  let d := modTck (fun t => { t with aligned := rdBit .tck TCK_CFG 0 d && !rdBit .tck TCK_CFG 1 d }) d
  let d := if again then chipRecord d else d
  linksStart (setEvent .rst 8 (wrF .rst RST_BOOT 0 4 7 d))

/-- Memory repairs that the tests decide: spare rows and columns of local memories and near stores (R429, R432). -/
def memRepairs (f : BootFindings) (d : Dev) : Dev :=
  (f.repairs.filter fun r => decide (3 ≤ r.1) && decide (r.1 ≤ 6)).foldl (fun d r => addRepair r.1 (blkInstance r.2.1) r.2.2.1 r.2.2.2 d) d

/-- Steps 3b to 5, with the memories and units sound. -/
def startRest (again : Bool) (f : BootFindings) (fz : FuseSt) (d : Dev) : Dev :=
  let d := memRepairs f d
  let d := coreTests f fz (farStart f d)
  let x := firmwareLoad d
  let d := (allCores.filter fun c => coreAlive c x.1).foldl (fun d c => coreLoad x.2 c d) x.1
  let d := lockAll (enableAll (wearRestore d))
  let d := modSel (fun s => { s with config := Keccak.shake256 (configBytes d) 64 }) d
  startReady again (wrF .rst RST_FW 0 16 (sat 0xFFFF f.pulls) d)

/-- The cause of a record of KIND 11 (R432) (DEDUCED, log entry 92). -/
def failedBefore (d : Dev) : Option Nat := (d.flash.repairs.find? fun r => r.ok && r.kind == 11).map (·.index)

/-- Steps 2 and 3a. -/
def startMesh (again : Bool) (f : BootFindings) (fz : FuseSt) (d : Dev) : Dev :=
  if f.step2Fails then startFailed 2 d
  else
    let d := d.flash.repairs.foldl (fun d r => applyRepRec r d) (slotsFromFuses fz d)
    let d := meshStart f (wr .pci PCI_LINK (f.hostLink &&& 0x1F7) d)
    match failedBefore d with
    | some c => setFailed c (if 2 < c then lockAll d else d)
    | none =>
      if d.net.retired.any vitalRouter then startFailed 5 d
      else
        let d := f.nearFails.foldl (fun d x => if blkOk (.nsc x.1 x.2.1) then repairExhausted (.nsc x.1 x.2.1) 1 x.2.2 d else d) d
        if f.nearFails.any fun x => blkOk (.nsc x.1 x.2.1) then startFailed 3 d
        else
          let bad := f.badUnits.filter fun b => blkOk b && (match b with | .nsc _ _ | .prs _ | .snp _ => true | _ => false)
          let d := bad.foldl (fun d b => bistFail b 0 0 d) { d with mem := [], poison := [], flaws := [], wback := [] }
          if bad.isEmpty then startRest again f fz d else startFailed 4 d

/-- COLD_START (R423, R426): the start that is waiting runs, once nothing holds the chip (DEDUCED, log entry 91). -/
def coldStart (f : BootFindings) (fz : FuseSt) (d : Dev) : Dev :=
  if d.mod_.start = 0 || chipHeld d then d
  else
    let again := d.mod_.start == 2
    let d := wrF .rst RST_BOOT 0 4 1 (modMod (fun m => { m with start := 0 }) d)
    let d := { d with flash := { d.flash with mgmt := f.mgmt, coreFw := f.core } }
    let d := (List.range 6).foldl (fun d i => wrF .rst (RST_STEP0 + 4 * i) 0 16 ((f.ms[i]?).getD 0) d) d
    let x := mgmtBoot fz (selStart f.selFails fz (fromFuses fz d))
    let d := logStart fz x.1
    if x.2 then startMesh again f fz (firmwareSets f d) else startFailed 1 d

/-- BOOT_STEP_TIMEOUT (R423): step 1 ends in the mask-ROM service, steps 2 and 3a in FAILED; in steps 3b to 5 the units that have not finished
fail for themselves. `step` counts from 1, with 3a as 3. -/
def bootTimeout (step : Nat) (d : Dev) : Dev :=
  if d.mod_.start = 0 || chipHeld d || step = 0 || 3 < step then d
  else startFailed step (modMod (fun m => { m with start := 0 }) d)

/-! ### Heartbeat and watchdog (R440, R514) -/

/-- HEARTBEAT: firmware, or the mask-ROM service, counts it and sends it where IBIs are enabled. -/
def heartbeat (d : Dev) : Dev :=
  if chipHeld d || d.mod_.start ≠ 0 then d
  else
    let d := wrF .rst RST_HB 0 16 (rdF .rst RST_HB 0 16 d + 1) d
    let v := rdF .rst RST_HB 0 16 d + rdF .rst RST_BOOT 0 4 d * 2 ^ 16 + rdF .rst RST_BOOT 16 4 d * 2 ^ 20 + rdF .rst RST_HB 16 1 d * 2 ^ 24
    if rdBit .pci PCI_I3C 7 d then { d with out := .ibi (BitVec.ofNat 8 0xB7 :: toBytes 4 v) :: d.out } else d

/-- MGMT_WATCHDOG_EXPIRY. -/
def watchdog (d : Dev) : Dev := if chipHeld d || d.mod_.start ≠ 0 then d else chipReset 2 d

/-! ### The commands -/

/-- COLD_START (R423). -/
def execColdStart (f : BootFindings) (s : State) : Host.Outcome State Fault Refusal := .next { s with dev := coldStart f s.fuses s.dev }
/-- BOOT_STEP_TIMEOUT (R423). -/
def execBootStepTimeout (step : Nat) (s : State) := s.onDev (bootTimeout step)
/-- POWER_ENABLE (R510). -/
def execPowerEnable (s : State) := s.onDev powerEnable
/-- POWER_DISABLE (R510). -/
def execPowerDisable (s : State) := s.onDev powerDisable
/-- TRAY_RESET_ASSERT (R510). -/
def execTrayResetAssert (s : State) := s.onDev trayAssert
/-- TRAY_RESET_RELEASE (R510). -/
def execTrayResetRelease (s : State) := s.onDev trayRelease
/-- CHIP_RESET (R426). -/
def execChipReset (cause : Nat) (s : State) := s.onDev (chipReset cause)
/-- SUPPLY_RESET (R449). -/
def execSupplyReset (s : State) := s.onDev supplyReset
/-- SUPPLY_RESET_RELEASE (R449). -/
def execSupplyResetRelease (s : State) := s.onDev supplyRelease
/-- OVER_VOLTAGE (R449). -/
def execOverVoltage (s : State) := s.onDev overVoltage
/-- THERMAL_SAMPLE (R459). -/
def execThermalSample (hottest : Nat) (s : State) := s.onDev (thermalSample hottest)
/-- RAIL_RESET (R451). -/
def execRailReset (rail : Nat) (s : State) := s.onDev (railReset rail)
/-- HEARTBEAT (R440, R514). -/
def execHeartbeat (s : State) := s.onDev heartbeat
/-- MGMT_WATCHDOG_EXPIRY (R440). -/
def execMgmtWatchdogExpiry (s : State) := s.onDev watchdog

end Sys2Proof.Machine
end

