-- ==== Sys2Proof/Machine/Reads.lean ====
section
/-! DEFINITION. Register reads (R7, R37, R40, R53, R64, R65, R111), configuration parity (R54, R55), accesses held in the logical-core window
(R64), and the commands that are accesses to one register. -/

namespace Sys2Proof.Machine

/-! ### Parity (R54) -/

/-- An odd number of ones. -/
def oddOnes (v : Nat) : Bool := ((List.range 32).filter (bit v)).length % 2 == 1

/-- An upset of stored configuration bits: the register's value changes, and with an odd number of bits its parity no longer agrees. The
routing tables are protected by another code (R300) (DEDUCED, log entry 18). -/
def upset (b : Blk) (o mask : Nat) (d : Dev) : Dev :=
  match regSpec b o with
  | some s =>
    let m := mask &&& (s.rw ||| s.rwl)
    let key := accKey b o d
    if m = 0 || o = MSH_RT && (match b with | .msh _ _ => true | _ => false) then d
    else
      let d := wrKey key (rdKey d key ^^^ m) d
      if oddOnes m then
        { d with parityBad := if d.parityBad.contains key then Sparse.unmark d.parityBad key else Sparse.mark d.parityBad key }
      else d
  | none => d

def upsets (b : Blk) (flips : List (Nat × Nat)) (d : Dev) : Dev := flips.foldl (fun d f => upset b f.1 f.2 d) d

/-- The registers of a block that fail their check, by offset. -/
def failingRegs (b : Blk) (d : Dev) : List Nat :=
  (sortLe (fun x y => decide (x ≤ y)) ((d.parityBad.filter fun k => keyBlock k == some b).map fun k => regOff k)).eraseDups

/-- PARITY_SCAN (R54): every configuration register of the block is checked. -/
def parityScan (b : Blk) (flips : List (Nat × Nat)) (d : Dev) : Dev :=
  if !blkOk b || inReset b d || (presentBlk (blkBase b) d).isNone then d
  else
    let d := upsets b flips d
    (failingRegs b d).foldl (fun d o => parityFound b o d) d

/-! ### Reads -/

/-- The LO halves of 64-bit pairs (R111). -/
def isLo (b : Blk) (o : Nat) : Bool :=
  match b with
  | .arr _ => [ARR_QDUMP_LO, ARR_SLICES_LO, ARR_SPARSE_LO].contains o
  | .fed _ => [FED_FRZ_TOTAL_LO, FED_SKIP_LO].contains o
  | .lmm c => (isMatrix c && o == LMM_CONF_LO) || [ECC_CE_LO, ECC_ADDR_LO, ECC_CADDR_LO].contains o
  | .vec _ => [VEC_RNG_SEED_LO, VEC_RNG_CTR_LO, VEC_DRAWS_LO].contains o
  | .seq c => [SEQ_TMO_TGT_LO, SEQ_TMO_VAL_LO, SEQ_ABS_ADDR_LO].contains o ||
      (isVector c && [VCR_RNG_SEED_LO, VCR_RNG_CTR_LO, VCR_DRAWS_LO].contains o) ||
      (match streamAt c o with
       | some (_, q) => [S_BASE_LO, S_TAILADDR_LO, S_HEAD_LO, S_TAIL_LO, S_COUNT_LO, S_BRK_COUNT_LO, S_SREG_LO].contains q
       | none => false)
  | .tck => [TCK_NUM_LO, TCK_FRAME_EN_LO, TCK_OVR_NUM_LO, TCK_ARM_NUM_LO].contains o
  | .nsc _ _ => [NSC_RD_LO, NSC_WR_LO, NSC_FLAG_LO, ECC_CE_LO, ECC_ADDR_LO, ECC_CADDR_LO].contains o
  | .fmc _ _ => [FMC_CCHIT_LO, FMC_CCMISS_LO, FMC_RD_LO, FMC_WR_LO, ECC_CE_LO, ECC_ADDR_LO, ECC_CADDR_LO].contains o
  | .str _ _ _ => [STR_DTAB_LO, STR_FLT_ADDR_LO, STR_NACK_ADDR_LO, STR_BYTES_LO].contains o
  | .mrk => [MRK_SUBMIT_LO, MRK_EPOCH_LO, MRK_BAL_LO, MRK_MIG_LO].contains o
  | .msh _ _ => [MSH_FLITS_LO, MSH_COMB_LO].contains o
  | .lnk _ _ => o == LNK_FEC_CORR_LO
  | .fab => [FAB_FLOW_SENT_LO, FAB_FLOW_LANDED_LO, FAB_CMAP_BASE_LO].contains o
  | .prs _ => [PRS_BKT_LO, PRS_SHD_LO, PRS_RCP_LO, PRS_VWORD_LO, PRS_VPREV_LO, PRS_STEP_LO, PRS_WC_LO, PRS_WC_LEN_LO, PRS_WC_STRIDE_LO,
      PRS_RNG_KEY_LO, PRS_DG_LO, PRS_ERR_ADDR_LO, PRS_DGM_STEP_LO, PRS_PARAMS_LO].contains o
  | .snp _ => [SNP_REC_LO, SNP_FEED_LO, SNP_LAST_CAP_LO, SNP_RESTORE_STEP_LO, SNP_RESUME_LO, SNP_IMG_LO, SNP_IMG_LEN_LO, SNP_SNAP_STEP_LO,
      SNP_PAR_LO, SNP_PAR_LEN_LO, SNP_PAR_GEN_LO, SNP_ERR_ADDR_LO, SNP_BYTES_LO].contains o
  | .rst | .rstd _ => o == RST_REC_NUM_LO
  | .pwr => o == PWR_ENERGY_LO
  | .age => o == AGE_SAMPLES_LO
  | .sel => o == SEL_SERIAL_LO
  | .log => [LOG_CHAIN_LO, LOG_SEQ_LO, LOG_HSEQ_LO, LOG_HBASE_LO, LOG_HLINK_LO, LOG_HWR_LO, LOG_HACK_LO].contains o
  | .pci => o == PCI_BAR4_BASE_LO || o == PCI_PINLOG_NUM_LO
  | _ => false

def latchKey (b : Blk) (o : Nat) (org : Org) : Nat × Nat × Nat := (regKey b o, org.cls, org.id)

/-- The value of a read and what the read leaves: a LO read latches the HI half for its origin, and the next HI read takes it (R111)
(DEDUCED, log entry 17). -/
def pairRead (org : Org) (b : Blk) (o : Nat) (d : Dev) : Dev × Nat :=
  let v := regVal b o d
  if isLo b o then
    let k := latchKey b (o + 4) org
    ({ d with hiLatch := (k, regVal b (o + 4) d) :: d.hiLatch.filter fun h => decide (h.1 ≠ k) }, v)
  else
    let k := latchKey b o org
    match d.hiLatch.find? fun h => decide (h.1 = k) with
    | some h => ({ d with hiLatch := d.hiLatch.filter fun h => decide (h.1 ≠ k) }, h.2)
    | none => (d, v)

/-- A read of a 32-bit register at a physical offset of BAR0, through any view. In reset WPERM reads its stored value, as the header does: R53 names it
neither there nor among the block's own registers (DESIGN CHOICE, log entry 148). -/
def regRead (org : Org) (a : Nat) (flips : List (Nat × Nat)) (d : Dev) : Dev × Nat :=
  match presentBlk a d with
  | none => (d, 0)
  | some b =>
    let o := regOff a
    if (regSpec b o).isNone || (inReset b d && decide (0x40 ≤ o) && o != R_WPERM) then (d, 0)
    else
      let d := upsets b flips d
      let d := if d.parityBad.contains (accKey b o d) then parityFound b o d else d
      let r := pairRead org b o d
      (readDone b o r.1, r.2)

/-- A served read: of 32 bits, or of 64 as two, the lower address first (R40). -/
def doRead (org : Org) (a len : Nat) (flips : List (Nat × Nat)) (d : Dev) : Dev × Nat :=
  let one (x : Nat) (fl : List (Nat × Nat)) (d : Dev) : Dev × Nat := match physOffset org x d with | some p => regRead org p fl d | none => (d, 0)
  if len = 8 then
    let l := one a flips d
    let h := one (a + 4) [] l.1
    (h.1, l.2 + h.2 * 2 ^ 32)
  else one a flips d

def answer (d : Dev × Nat) : Dev := { d.1 with out := .regData d.2 :: d.1.out }
def refuse (st : Nat) (d : Dev) : Dev := { d with out := .hostCpl [] st false :: d.out }

/-- REGISTER_READ: a read access from an origin. -/
def readAccess (org : Org) (a len : Nat) (flips : List (Nat × Nat)) (d : Dev) : Dev :=
  if isHost org && !hostUp d then d
  else if isHost org && !hostServed d then refuse 2 d
  else if org.cls == 2 && isSafe .pci d then refuse 1 d
  else if vfRefused org a d && !lcwWaits org a d then refuse 1 (hostErrFree .unsupported (fnOf org) (latch .pci cPermDenied d))
  else if !widthOk a len then
    (if isHost org then refuse 4 (hostErrFree .completerAbort (fnOf org) (latch .pci cAddressFault d)) else { d with out := .regRefused cAddressFault :: d.out })
  else if lcwWaits org a d then { d with lcwHeld := d.lcwHeld ++ [(org, a, len, none)] }
  else answer (doRead org a len flips d)

/-- LCW_ACCESS_RELEASE (R64): the accesses held are served by the new slots, in order. -/
def lcwRelease (d : Dev) : Dev :=
  let go := d.lcwHeld.filter fun h => !lcwWaits h.1 h.2.1 d
  go.foldl (fun d h => match h.2.2.2 with
    | some v => writeAccess h.1 h.2.1 h.2.2.1 v d
    | none => readAccess h.1 h.2.1 h.2.2.1 [] d) { d with lcwHeld := d.lcwHeld.filter fun h => lcwWaits h.1 h.2.1 d }

/-! ### The commands -/

/-- REGISTER_WRITE (R37). -/
def execRegisterWrite (org : Org) (addr len val : Nat) (s : State) := s.onDev (writeAccess org addr len val)
/-- REGISTER_READ (R37). -/
def execRegisterRead (org : Org) (addr len : Nat) (flips : List (Nat × Nat)) (s : State) := s.onDev (readAccess org addr len flips)
/-- COUNTER_LO_READ (R111). -/
def execCounterLoRead (org : Org) (addr : Nat) (s : State) := s.onDev (readAccess org addr 4 [])
/-- PARITY_SCAN (R54). -/
def execParityScan (b : Blk) (flips : List (Nat × Nat)) (s : State) := s.onDev (parityScan b flips)
/-- RESET_REQ (R47): a write of CTRL with RESET_REQ set, through a view. -/
def execResetReq (org : Org) (b : Blk) (view val : Nat) (s : State) :=
  s.onDev fun d => writeAccess org (addrFor org b R_CTRL d + 0x1000 * (view % 4)) 4 (val ||| 4) d
/-- LCW_ACCESS_RELEASE (R64). -/
def execLcwAccessRelease (s : State) := s.onDev lcwRelease
/-- ARR_RELEASE (R110). -/
def execArrRelease (org : Org) (c : CoreRef) (val : Nat) (s : State) :=
  s.onDev (cmdSet org (.arr c) ARR_QUAR val (if bits val 8 2 = 0 then 0x100 else 0))
/-- ARR_DUMP (R110). -/
def execArrDump (org : Org) (c : CoreRef) (val : Nat) (s : State) :=
  s.onDev (cmdSet org (.arr c) ARR_QUAR val (if bits val 10 2 = 0 then 0x400 else 0))
/-- SCT_ADVANCE (R136). -/
def execSctAdvance (org : Org) (c : CoreRef) (val : Nat) (s : State) := s.onDev (cmdSet org (.sct c) SCT_ADVANCE val 0x80000000)
/-- RNG_SEED (R142): the HI half of the seed is written. -/
def execRngSeed (org : Org) (c : CoreRef) (val : Nat) (s : State) :=
  s.onDev (if isMatrix c then cmdWrite org (.vec c) VEC_RNG_SEED_HI val else cmdWrite org (.seq c) VCR_RNG_SEED_HI val)
/-- STREAM_ENABLE (R190). -/
def execStreamEnable (org : Org) (c : CoreRef) (st val : Nat) (s : State) := s.onDev (cmdSet org (.seq c) (sOff st S_CTL) val 1)
/-- STREAM_RESUME (R184). -/
def execStreamResume (org : Org) (c : CoreRef) (st val : Nat) (s : State) := s.onDev (cmdSet org (.seq c) (sOff st S_CTL) val 2)
/-- STREAM_BASE_WRITE (R190). -/
def execStreamBaseWrite (org : Org) (c : CoreRef) (st val : Nat) (s : State) := s.onDev (cmdWrite org (.seq c) (sOff st S_BASE_HI) val)
/-- ARM_DATA (R211). -/
def execArmData (org : Org) (val : Nat) (s : State) := s.onDev (cmdWrite org .tck TCK_ARM_DATA val)
/-- ARM_GO (R212). -/
def execArmGo (org : Org) (val : Nat) (s : State) := s.onDev (cmdSet org .tck TCK_ARM_CTL val 1)
/-- ARM_CANCEL (R215). -/
def execArmCancel (org : Org) (val : Nat) (s : State) := s.onDev (cmdSet org .tck TCK_ARM_CTL val 2)
/-- ARM_DISCARD (R211). -/
def execArmDiscard (org : Org) (val : Nat) (s : State) := s.onDev (cmdSet org .tck TCK_ARM_CTL val 4)
/-- MISS_LEVELLED (R214). -/
def execMissLevelled (org : Org) (val : Nat) (s : State) := s.onDev (cmdSet org .tck TCK_MISS_INFO val 0x200)
/-- ECC_INJECT (R246). -/
def execEccInject (org : Org) (b : Blk) (val : Nat) (s : State) := s.onDev (cmdSet org b ECC_INJ val 1)
/-- MAPOUT_NEXT (R231). -/
def execMapoutNext (org : Org) (d i j val : Nat) (s : State) := s.onDev (cmdSet org (.fmc d i) (FMC_CHAN0 + 4 * (j % 4)) val 0x10000)
/-- MRK_FIT (R252). -/
def execMrkFit (org : Org) (val : Nat) (s : State) := s.onDev (cmdSet org .mrk MRK_CTL val 0x100)
/-- MRK_UNBIND (R273). -/
def execMrkUnbind (org : Org) (val : Nat) (s : State) := s.onDev (cmdSet org .mrk MRK_CTL val 0x200)
/-- MRK_REFIT_NOW (R267). -/
def execMrkRefitNow (org : Org) (val : Nat) (s : State) := s.onDev (cmdSet org .mrk MRK_CTL val 0x400)
/-- ROUTER_RETIRE (R285). -/
def execRouterRetire (org : Org) (d r val : Nat) (s : State) := s.onDev (cmdSet org (.msh d r) MSH_CFG val 0x100)
/-- LNK_RETRAIN (R325). -/
def execLnkRetrain (org : Org) (l val : Nat) (s : State) := s.onDev (cmdSet org (lnkBlk l) LNK_CTL val 1)
/-- FLOW_RELEASE (R324). -/
def execFlowRelease (org : Org) (val : Nat) (s : State) := s.onDev (cmdSet org .fab FAB_FLOW_CTL val 1)
/-- PRESS_ENABLE (R374). -/
def execPressEnable (org : Org) (val : Nat) (s : State) := s.onDev (cmdSet org prs0 PRS_CTL val 1)
/-- PRESS_TRACKER_ADVANCE (R399). -/
def execPressTrackerAdvance (org : Org) (d val : Nat) (s : State) := s.onDev (cmdSet org (.prs d) PRS_TRK_ADVANCE val 0x80000000)
/-- SNP_RESTORE (R407). -/
def execSnpRestore (org : Org) (val : Nat) (s : State) := s.onDev (cmdSet org snp0 SNP_CTL val 0x100)
/-- SNP_RESUME (R407). -/
def execSnpResume (org : Org) (val : Nat) (s : State) := s.onDev (cmdSet org snp0 SNP_CTL val 0x200)
/-- SNP_SNAP (R415). -/
def execSnpSnap (org : Org) (val : Nat) (s : State) := s.onDev (cmdSet org snp0 SNP_CTL val 0x400)
/-- SNP_RELAY (R410). -/
def execSnpRelay (org : Org) (val : Nat) (s : State) := s.onDev (cmdSet org snp0 SNP_CTL val 0x800)
/-- SNP_REBUILD (R414). -/
def execSnpRebuild (org : Org) (val : Nat) (s : State) := s.onDev (cmdSet org snp0 SNP_CTL val 0x1000)
/-- RST_WDOG_KICK (R440). -/
def execRstWdogKick (org : Org) (val : Nat) (s : State) := s.onDev (cmdSet org .rst RST_WDOG_KICK val 1)
/-- RST_CTX_RESET (R445). -/
def execRstCtxReset (org : Org) (val : Nat) (s : State) := s.onDev (cmdSet org .rst RST_CTX_RESET val 0x100)
/-- FW_UPDATE (R444). -/
def execFwUpdate (org : Org) (val : Nat) (s : State) := s.onDev (cmdSet org .rst RST_FW val 0x10000000)
/-- LOG_HACK_WRITE (R491): the HI half of LOG_HACK is written. -/
def execLogHackWrite (org : Org) (val : Nat) (s : State) := s.onDev (cmdWrite org .log LOG_HACK_HI val)
/-- LOG_CTL_HASH (R496). -/
def execLogCtlHash (org : Org) (val : Nat) (s : State) := s.onDev (cmdSet org .log LOG_CTL val 1)
/-- LOG_CTL_SEAL (R493). -/
def execLogCtlSeal (org : Org) (val : Nat) (s : State) := s.onDev (cmdSet org .log LOG_CTL val 2)
/-- LOG_FREAD_READ (R496). -/
def execLogFreadRead (org : Org) (s : State) := s.onDev (readAccess org (blkBase .log + LOG_FREAD) 4 [])

end Sys2Proof.Machine
end

