-- ==== Sys2Proof/Machine/Receive.lean ====
section
/-! DEFINITION. Requests at their target and responses at their issuer (R187, R200, R226, R233 to R235, R250, R287 to R298, R390, R392). -/

namespace Sys2Proof.Machine

/-- The router that serves the packet's target. -/
def servedAt (a : Arrival) (b : Blk) (d : Dev) : Nat :=
  blkPos (match a.link with
    | some l => lnkAt l
    | none => match localIssuer a.pkt d with | some i => issuerPos i | none => mgmtPos) b d

/-- A memory serves the requests it has held in the order in which they came (R250): one that waits behind another is held too. -/
def waitsBehind (a : Arrival) (b : Blk) (d : Dev) : Bool :=
  (d.net.memHeld.takeWhile fun x => x != a).any fun x => (spotBlks (arrSpot x d) (reqLen x.pkt) d).contains b

/-- A request is held by a memory. -/
def holdArrival (a : Arrival) (d : Dev) : Dev :=
  { d with net := { d.net with arrived := if d.net.arrived.contains a then d.net.arrived else d.net.arrived ++ [a]
                               memHeld := if d.net.memHeld.contains a then d.net.memHeld else d.net.memHeld ++ [a] } }

/-! ### Answers -/

/-- The range an operation names is outside its row of R287. -/
def rowRefused (a : Arrival) (d : Dev) : Bool :=
  let q := a.pkt
  !opAddrOk q || crosses q || !offOk true (gSpace q.addr) (gOff q.addr) d

/-- A request that its target refuses: over a link, a violation for the reasons that R322 lists (a row of R287, a
register write that WPERM denies). What a fenced or reset unit's port absorbs, its
router answers and counts (R297, R299). -/
def nackArrival (a : Arrival) (p reason : Nat) (d : Dev) : Dev :=
  let d := if reason = nkTargetReset then bump (posBlk p) MSH_NACK 1 d else d
  match a.link with
  | some l => if (reason = nkAddress && rowRefused a d) || (reason = nkPerm && gSpace a.pkt.addr = 3) then violate l reason a.pkt d
    else respNack p reason a.pkt d
  | none => respNack p reason a.pkt d

/-- The request has been carried out: its bytes have landed (R292 to R294, R296), and the answer goes back. -/
def doneArrival (a : Arrival) (p : Nat) (op : Op) (aux1 : Nat) (data : List Byte) (poison : List Bool) (d : Dev) : Dev :=
  let q := a.pkt
  let d := respond p q op 0 aux1 data poison d
  if q.flow && a.link.isSome then
    let d := if q.last then modFlow q.dstFlow (fun f =>
        { f with totals := f.totals ++ [⟨q.total, if q.op = .putNotify then some (q.aux0 % 16384) else none⟩] }) d else d
    landed q.dstFlow (countedBytes q) d
  else d

/-- FLAG_ADD, PUT and CAS to the stitch flag of a framed context (R200). -/
def stitchKey (k : Nat) (d : Dev) : Bool :=
  keySpace k == 4 && (k - 2 ^ 44) % 0x20000 / 8 == stitchFlag && framed ((k - 2 ^ 44) / 0x20000) d

/-- A write that a version window refuses (R392): any but the Press's and the Baste's. -/
def windowBars (a : Arrival) (k n : Nat) (d : Dev) : Bool :=
  windowHit k n d && !(match localIssuer a.pkt d with | some (.press _ _ _) => true | some (.baste _ _ _ _) => true | _ => false)

/-- What a request does once its port has let it in: at a memory, at a register, or nowhere. A request that the port has accepted completes
whatever the port does since (R250, R297). -/
def serve (a : Arrival) (mem : Nat → Nat → Dev → Dev) (reg : Nat → Nat → Dev → Dev) (d : Dev) : Dev :=
  let known := d.net.arrived.contains a
  let bad := match a.link with | some _ => if known then none else destCheck a.pkt d | none => none
  let d' := takeArrived a d
  let s := arrSpot a d
  match a.link, bad with
  | some l, some reason => violate l reason a.pkt d'
  | _, _ =>
    if rowRefused a d then nackArrival a mgmtPos nkAddress d'
    else match spotBlk s d with
      | none => match s with
        | .reg o => reg o mgmtPos d'
        | _ => nackArrival a mgmtPos nkAbsent d'
      | some b =>
        let isReg := match s with | .reg _ => true | _ => false
        let p := servedAt a b d
        match (if known then none else portAnswer p s (reqLen a.pkt) d) with
        | some reason => nackArrival a p reason d'
        | none =>
          if (spotBlks s (reqLen a.pkt) d).any (fun b => holdsReq b isReg d || waitsBehind a b d) then holdArrival a d
          else match s with
            | .mem k => mem k p d'
            | .reg o => reg o p d'
            | .absent => nackArrival a p nkAbsent d'

/-! ### Registers in space 011 (R40, R287, R484) -/

/-- The origin of a register access through the mesh. -/
def arrOrg (a : Arrival) (d : Dev) : Org :=
  if a.link.isSome then ⟨3, a.pkt.srcDev⟩
  else match localIssuer a.pkt d with
    | some .mgmt => ⟨0, 0⟩
    | some i => ⟨8, blkInstance (issuerBlk i)⟩
    | none => ⟨8, 0⟩

/-- A 32-bit write at a register; whether WPERM denied it. -/
def meshWrite (org : Org) (o v : Nat) (d : Dev) : Dev × Bool :=
  let no := match presentBlk o d with
    | some b => match regSpec b (regOff o) with
      | some s => !(inReset b d && regOff o != R_CTRL) && denied org b (regOff o) (viewOf o) v s d
      | none => false
    | none => false
  (regWrite false org o v d, no)

def regPut (a : Arrival) (o p : Nat) (d : Dev) : Dev :=
  let org := arrOrg a d
  let n := a.pkt.data.length
  let l := meshWrite org o (ofBytes (a.pkt.data.take 4)) d
  let h := if n = 8 then meshWrite org (o + 4) (ofBytes ((a.pkt.data.drop 4).take 4)) l.1 else (l.1, false)
  if l.2 || h.2 then nackArrival a p nkPerm h.1 else doneArrival a p .ack 0 [] [] h.1

def regGet (a : Arrival) (o p : Nat) (d : Dev) : Dev :=
  let r := doRead (arrOrg a d) o (a.pkt.len + 1) [] d
  doneArrival a p .data 0 (toBytes (a.pkt.len + 1) r.2) [] r.1

/-! ### Memories -/

/-- Bytes stored at a key. In the flag store this is an update of the flag (R226) (DEDUCED, log entry 63). -/
def putBytes (k : Nat) (bs : List Byte) (ps : List Bool) (d : Dev) : Dev :=
  if keySpace k = 4 then
    let ctx := (k - 2 ^ 44) / 0x20000
    flagNotices ctx ((k - 2 ^ 44) % 0x20000 / 8) (bump64 (flagBlk ctx) NSC_FLAG_LO 1 (memWrite k bs ps d))
  else memWrite k bs ps d

def memPutAt (a : Arrival) (k p : Nat) (d : Dev) : Dev :=
  let q := a.pkt
  let n := q.data.length
  if windowBars a k n d then nackArrival a p nkPerm d
  else if stitchKey k d then nackArrival a p nkAddress d
  else doneArrival a p .ack 0 [] [] (putBytes k q.data (bytePoison q.poison n) d)

def memGetAt (a : Arrival) (k p : Nat) (d : Dev) : Dev :=
  let n := a.pkt.len + 1
  let d := readEffects k n d
  doneArrival a p .data (tagAt k d) (memBytes k n d) (flitPoison (poisonBytes k n d) n) d

/-- The elements at the target, read: a poisoned granule refuses the operation (R235). -/
def memAddAt (a : Arrival) (k p : Nat) (d : Dev) : Dev :=
  let q := a.pkt
  let n := q.data.length
  if windowBars a k n d then nackArrival a p nkPerm d
  else
    let d := readEffects k n d
    if anyPoison k n d then nackArrival a p nkEcc d
    else
      let sum := addElems q.atype (n / atypeSize q.atype) (memBytes k n d) q.data
      doneArrival a p .ack 0 [] [] (memWrite k sum (bytePoison q.poison n) d)

def memCasAt (a : Arrival) (k p : Nat) (d : Dev) : Dev :=
  let q := a.pkt
  if windowBars a k 8 d then nackArrival a p nkPerm d
  else if stitchKey k d then nackArrival a p nkAddress d
  else
    let d := readEffects k 8 d
    if anyPoison k 8 d then nackArrival a p nkEcc d
    else
      let old := memBytes k 8 d
      let d := if old = q.data.take 8 then putBytes k ((q.data.drop 8).take 8) ((bytePoison q.poison 16).drop 8) d else d
      doneArrival a p .casOld 0 old [] d

def memFlagAddAt (a : Arrival) (k p : Nat) (d : Dev) : Dev :=
  let q := a.pkt
  if stitchKey k d then nackArrival a p nkAddress d
  else
    let d := readEffects k 8 d
    if anyPoison k 8 d then nackArrival a p nkEcc d
    else
      let v := (memNat k 8 d + ofBytes (q.data.take 8)) % 2 ^ 64
      doneArrival a p .ack 0 [] [] (putBytes k (toBytes 8 v) (bytePoison q.poison 8) d)

/-! ### Each operation -/

def noReg (a : Arrival) (_ p : Nat) (d : Dev) : Dev := nackArrival a p nkAddress d

/-- PUT_RECEIVE (R287) (DEDUCED, log entry 61). -/
def putReceive (a : Arrival) (d : Dev) : Dev := if a.pkt.op = .put then serve a (memPutAt a) (regPut a) d else d

/-- GET_RECEIVE (R287, R390); `flaws` are errors that have struck stored granules (R232, R233). -/
def getReceive (a : Arrival) (flaws : List Flaw) (d : Dev) : Dev :=
  if a.pkt.op = .get then serve a (memGetAt a) (regGet a) (addFlaws flaws d) else d

/-- ADD_RECEIVE (R288, R296). -/
def addReceive (a : Arrival) (d : Dev) : Dev := if a.pkt.op = .add then serve a (memAddAt a) (noReg a) d else d

/-- CAS_RECEIVE (R287). -/
def casReceive (a : Arrival) (d : Dev) : Dev := if a.pkt.op = .cas then serve a (memCasAt a) (noReg a) d else d

/-- FLAG_ADD_RECEIVE (R226, R287). -/
def flagAddReceive (a : Arrival) (d : Dev) : Dev := if a.pkt.op = .flagAdd then serve a (memFlagAddAt a) (noReg a) d else d

/-- Logical flows BASE + 12 to BASE + 15 of a context with a restore carry its relay (R410): a notice met on one of them. -/
def relayCheck (q : Packet) (d : Dev) : Dev :=
  let ctx := flowCtx q.dstFlow d
  if (List.range 4).any (fun k => recFlow ctx (12 + k) d == some q.dstFlow) && (getSnap ctx d).restore.isSome then relayNotified ctx d else d

/-- PUT_NOTIFY_RECEIVE (R293, R294). -/
def putNotifyReceive (a : Arrival) (d : Dev) : Dev :=
  if a.pkt.op = .putNotify then
    let d := serve a (memPutAt a) (noReg a) d
    if a.pkt.flow && a.link.isSome then relayCheck a.pkt d else d
  else d

/-! ### Responses (R243, R297, R298, R308, R316) -/

/-- The unit that issued a request, which a fence or a reset may have closed. -/
def issuerShut (p : Packet) (d : Dev) : Bool :=
  match answeredReq p d with
  | some r => match r.by_ with
    | .firmware _ _ _ => false
    | i => inReset (issuerBlk i) d || portFenced (issuerPos i) (issuerBlk i) d
  | none => false

/-- A response at its issuer: the request is completed; a response to a unit in reset is discarded with its tracking entry (R297). A reset
that drained this request may then be performed (R28) (DEDUCED, log entry 62). -/
def response (op : Op) (p : Packet) (d : Dev) : Dev :=
  if p.op = op then
    let shut := issuerShut p d
    let d := takePacket p d
    drainCheck (if shut then (match (takeReq p d).1, (takeReq p d).2 with
      | some r, d => (match r.flow with | some f => mcWake (flowOpened f d) | none => d)
      | none, d => d) else takeResponse p d)
  else d

/-! ### No progress (R318) -/

/-- FLOW_NOPROGRESS (R318, R436): the peer is lost; every outstanding request of the flow ends as a NACK, and the window is released. -/
def flowNoprogress (f : Nat) (d : Dev) : Dev :=
  if d.net.reqs.any fun r => r.flow == some f then
    let d := latchWith .fab cPeerLost (fun d => wr .fab FAB_LOST (peerDev f d + flowCtx f d * 65536) d) d
    drainCheck (mcWake (flowOpened f (failFlow f d)))
  else d

/-! ### The commands -/

/-- PUT_RECEIVE (R287). -/
def execPutReceive (a : Arrival) (s : State) := s.onDev (putReceive a)
/-- GET_RECEIVE (R287). -/
def execGetReceive (a : Arrival) (flaws : List Flaw) (s : State) := s.onDev (getReceive a flaws)
/-- ADD_RECEIVE (R288). -/
def execAddReceive (a : Arrival) (s : State) := s.onDev (addReceive a)
/-- CAS_RECEIVE (R287). -/
def execCasReceive (a : Arrival) (s : State) := s.onDev (casReceive a)
/-- FLAG_ADD_RECEIVE (R287). -/
def execFlagAddReceive (a : Arrival) (s : State) := s.onDev (flagAddReceive a)
/-- PUT_NOTIFY_RECEIVE (R294). -/
def execPutNotifyReceive (a : Arrival) (s : State) := s.onDev (putNotifyReceive a)
/-- ACK_RECEIVE (R316). -/
def execAckReceive (p : Packet) (s : State) := s.onDev (response .ack p)
/-- DATA_RECEIVE (R308). -/
def execDataReceive (p : Packet) (s : State) := s.onDev (response .data p)
/-- CAS_OLD_RECEIVE (R309). -/
def execCasOldReceive (p : Packet) (s : State) := s.onDev (response .casOld p)
/-- NACK_RECEIVE (R243). -/
def execNackReceive (p : Packet) (s : State) := s.onDev (response .nack p)
/-- FLOW_NOPROGRESS (R318). -/
def execFlowNoprogress (flow : Nat) (s : State) := s.onDev (flowNoprogress flow)
/-- MC_GRANT_RECEIVE (R320). -/
def execMcGrantReceive (p : Packet) (s : State) := s.onDev (response .mcGrant p)
/-- MC_DATA_RECEIVE (R320). -/
def execMcDataReceive (p : Packet) (s : State) := s.onDev fun d => if p.op = .mcData then drainCheck (mcDataReceive p (takePacket p d)) else d

end Sys2Proof.Machine
end

