-- ==== Sys2Proof/Machine/Host.lean ====
section
/-! DEFINITION. The host port (R26, R234, R237, R392, R425, R442, R502 to R507, R520) and the sidebands watched beside it (R510, R515,
R517). -/

namespace Sys2Proof.Machine

/-! ### Memory windows (R237, R503) -/

def hostOrg (fn : Nat) : Org := if fn = 0 then ⟨1, 0⟩ else ⟨2, fn⟩

/-- An answer with its refusal: the completion status of a read (none for a posted write), the fault that PCI latches and the error of
R507. -/
structure HostDeny where
  status : Nat
  code : Option Nat
  err : Option TlpError
deriving DecidableEq, Repr

/-- What a range of a memory window names: a key, or the refusal. -/
inductive HostSpot where
  | key (k : Nat)
  | deny (x : HostDeny)
deriving DecidableEq, Repr

def denyExtent : HostSpot := .deny ⟨1, some cAddressFault, some .unsupported⟩
def denyVf : HostSpot := .deny ⟨1, some cPermDenied, some .unsupported⟩

/-- A valid grant of the context holds the page (R503). -/
def granted (ctx space page : Nat) (d : Dev) : Bool :=
  (List.range 8).any fun e =>
    let i := ctx + 64 * e
    let g := rdB .pci PCI_GRANT i d
    let base := rdB .pci PCI_GRANT_BASE i d
    bit g 31 && bits g 0 1 == space && decide (base ≤ page) && decide (page < base + rdB .pci PCI_GRANT_LEN i d)

/-- Every page that a range touches is granted. -/
def grantedRange (ctx space o len : Nat) (d : Dev) : Bool :=
  (List.range ((o + len - 1) / 4096 - o / 4096 + 1)).all fun i => granted ctx space (o / 4096 + i) d

/-- The base that PF BAR4 shows, aligned to the size of the BAR (DESIGN CHOICE, log entry 120). -/
def bar4Base (d : Dev) : Nat := rd64 .pci PCI_BAR4_BASE_LO d / 2 ^ d.host.bar4 * 2 ^ d.host.bar4

/-- The place of a range of BAR2 or BAR4 of a function. -/
def hostSpot (fn bar off len : Nat) (d : Dev) : HostSpot :=
  let far := bar == 4
  let o := if !far then off else if fn = 0 then bar4Base d + off else rdB .pci PCI_VF4BASE (fn - 1) d * 2 ^ 36 + off
  let size := if !far then 2 ^ 35 else if fn = 0 then 2 ^ d.host.bar4 else 2 ^ 36
  if size < off + len then (if fn = 0 then denyExtent else denyVf)
  else if fn ≠ 0 && !grantedRange (fn - 1) (if far then 1 else 0) o len d then denyVf
  else if (if far then farSize d else nearSize) < o + len then denyExtent
  else .key (if far then keyFar o else keyNear o)

/-- What a refusal records (DEDUCED, log entry 118). -/
def hostDeny (fn : Nat) (x : HostDeny) (d : Dev) : Dev :=
  let d := match x.code with | some c => latch .pci c d | none => d
  match x.err with | some e => hostErrFree e fn d | none => d

/-- The refusals that do not depend on the place: the safe state of PCI (R520), and die 0 in reset (R26). -/
def portDeny (d : Dev) : Option HostDeny :=
  if isSafe .pci d then some ⟨1, none, none⟩
  else if dieDown d then some ⟨4, none, some .completerAbort⟩
  else none

/-- A read of BAR2 or BAR4 (DEDUCED, log entry 119). -/
def hostMemRead (fn bar off len : Nat) (d : Dev) : Dev :=
  match portDeny d with
  | some x => refuse x.status (hostDeny fn x d)
  | none => match hostSpot fn bar off len d with
    | .deny x => refuse x.status (hostDeny fn x d)
    | .key k =>
      let ps := hostPieces k len
      if ps.any fun p => pieceShut p.1 d then refuse 4 (hostErrFree .completerAbort fn d)
      else if (ps.any fun p => pieceHeld p.1 d) || d.host.posted.any (fun x => x.fn == fn) then d
      else
        let d := readEffects k len d
        { d with out := .hostCpl (memBytes k len d) 0 (anyPoison k len d) :: d.out }

/-- HOST_MEMORY_READ. -/
def hostRead (fn bar off len : Nat) (flaws : List Flaw) (d : Dev) : Dev :=
  if 64 < fn || !hostUp d then d
  else if !hostServed d then refuse 2 d
  else
    let d := postedGo (addFlaws flaws d)
    match bar with
    | 0 => readAccess (hostOrg fn) (if fn = 0 then off else 0x0C000000 + off) len [] d
    | 2 | 4 => hostMemRead fn bar off len d
    | _ => refuse 1 (hostErrFree .unsupported fn d)

/-- A write of BAR2 or BAR4: it lands, or waits behind a unit that performs no operation and behind earlier writes of its function (R156). -/
def hostMemWrite (fn bar off : Nat) (data : List Byte) (ep : Bool) (d : Dev) : Dev :=
  match portDeny d with
  | some x => hostDeny fn x d
  | none => match hostSpot fn bar off data.length d with
    | .deny x => hostDeny fn x d
    | .key k =>
      let w : PostedWrite := { fn := fn, key := k, data := data, ep := ep }
      if postedHeld w d || d.host.posted.any (fun x => x.fn == fn) then
        { d with host := { d.host with posted := d.host.posted ++ [w] } }
      else hostLand w d

/-- HOST_MEMORY_WRITE. A poisoned write of a register, whose effect the spec does not state, is reported and dropped. -/
def hostWrite (fn bar off : Nat) (data : List Byte) (ep : Bool) (d : Dev) : Dev :=
  if 64 < fn || !hostUp d || !hostServed d then d
  else
    let d := postedGo d
    match bar with
    | 0 =>
      if ep then hostErrFree .poisonedWrite fn d
      else writeAccess (hostOrg fn) (if fn = 0 then off else 0x0C000000 + off) data.length (ofBytes data) d
    | 2 | 4 => hostMemWrite fn bar off data ep d
    | _ => hostErrFree .unsupported fn d

/-! ### Configuration space (R425, R502, R503) -/

/-- Dwords that the spec states: identity and class code, whose revision byte is free. -/
def cfgDword (fn off : Nat) (d : Dev) : Nat :=
  let place := 4096 * fn + off
  if off = 0 then 0x1F5C + 65536 * (if fn ≠ 0 then 0x9A19 else if gradeS d then 0x9A0A else 0x9A09)
  else
    let v := (Config.cfgSpace place (Sparse.get hostInit d.host.cfg place) (Sparse.get hostInit d.host.aer fn)
      ((d.host.headers.filter fun h => h.1 == fn).flatMap (·.2)) d.free).toNat % 2 ^ 32
    if off = 8 then v % 256 + 0x12000000 else v

/-- HOST_CONFIG_REQUEST. A write that PCI Express defines as setting the size of BAR4 does so, within 1 GiB to 2 TiB. -/
def hostConfig (fn off : Nat) (write : Option Nat) (d : Dev) : Dev :=
  let off := off / 4 * 4 % 4096
  let place := 4096 * fn + off
  if !hostUp d then d
  else if !hostServed d then refuse 2 d
  else if 64 < fn then refuse 1 d
  else match write with
    | some v =>
      let h := { d.host with cfg := Sparse.set hostInit d.host.cfg place (v % 2 ^ 32) }
      let h := match (if fn = 0 then Config.bar4Write place (v % 2 ^ 32) else none) with
        | some n => { h with bar4 := max 30 (min 41 n) }
        | none => h
      refuse 0 { d with host := h }
    | none => { freeSkip 1 d with out := .hostCpl (toBytes 4 (cfgDword fn off d)) 0 false :: d.out }

/-! ### Completions of the device's reads (R421, R507) -/

/-- HOST_COMPLETION: the data of a read that the device issued; a completion of nothing is discarded. -/
def hostCompletion (tag : Nat) (data : List Byte) (d : Dev) : Dev :=
  if !hostUp d then d
  else match d.hostReads.find? fun r => r.1 == tag with
    | none => hostErrFree .unexpected 0 d
    | some r =>
      let d := { d with hostReads := d.hostReads.filter fun x => x.1 != tag }
      match r.2 with
      | .baste ctx _ _ addr => hostImage ctx addr data d
      | _ => d

/-- COMPLETION_TIMEOUT: the oldest read is abandoned (DEDUCED, log entry 123). -/
def completionTimeout (fn : Nat) (d : Dev) : Dev :=
  match d.hostReads with
  | [] => d
  | r :: rest =>
    let d := hostErr .completionTimeout fn [] { d with hostReads := rest }
    match r.2 with
    | .baste ctx _ _ addr => hostImageBad ctx addr d
    | _ => d

/-- HOST_TLP_ERROR (R507). -/
def tlpError (e : TlpError) (fn : Nat) (header : List Nat) (d : Dev) : Dev :=
  if !hostUp d then d
  else match e with
    | .completionTimeout => completionTimeout fn d
    | e => hostErr e fn header d

/-! ### Resets of the host port (R505) -/

/-- Every grant is cleared. -/
def isGrant (key : Nat) : Bool :=
  [PCI_GRANT, PCI_GRANT_BASE, PCI_GRANT_LEN].any fun o => key % bankStep == regKey .pci o
def clearGrants (d : Dev) : Dev :=
  { d with regs := d.regs.filter (fun p => !isGrant p.1), parityBad := d.parityBad.filter (fun k => !isGrant k) }

/-- A PF Function Level Reset (DEDUCED, log entry 121). -/
def pfReset (d : Dev) : Dev :=
  let d := clearGrants ((boundCtxs d).foldl (fun d x => contextReset x 0 d) d)
  { d with host := { d.host with cfg := [], bar4 := 41 } }

/-- A VF Function Level Reset. -/
def vfReset (vf : Nat) (d : Dev) : Dev :=
  let d := contextReset (vf - 1) 0 d
  { d with host := { d.host with cfg := Sparse.clearRange (4096 * vf) 4096 d.host.cfg } }

/-- The port trains: at a speed and width that the channel allows, which is free (R502) (DESIGN CHOICE, log entry 122). -/
def hostTrain (d : Dev) : Dev :=
  wr .pci PCI_LINK (freeNow d % 6 + 1 + 16 * 2 ^ (freeAt 1 d % 5)) (freeSkip 2 d)

/-- The port's link is down (R505): it acts as a PF reset. -/
def linkDownActs (d : Dev) : Dev := if hostServed d then pfReset d else d

/-- HOST_LINK_DOWN: also a Hot Reset; the port retrains. -/
def hostLinkDown (d : Dev) : Dev := if !hostUp d || rdF .pci PCI_LINK 0 3 d = 0 then d else hostTrain (linkDownActs d)

/-! ### Reference clock, tick input and glitches (R510, R515, R517) -/

/-- A pin is stuck: PIN_STUCK with the pin's code (R109, R510). -/
def pinStuck (pin : Nat) (d : Dev) : Dev := latchWith .pci cPinStuck (wr .pci PCI_STUCK pin) d

/-- REFCLK_LOSS (R515). -/
def refclkLoss (d : Dev) : Dev :=
  if !d.mod_.rails || d.mod_.refLost then d
  else if chipHeld d then modMod (fun m => { m with refLost := true }) d
  else
    let d := if hostUp d then wr .pci PCI_LINK 0 (linkDownActs d) else d
    let d := pinStuck 6 (modMod (fun m => { m with refLost := true }) d)
    if rdBit .tck TCK_CFG 0 d then enterHoldover d else d

/-- REFCLK_RETURN (R515): the host port retrains. -/
def refclkReturn (d : Dev) : Dev :=
  if !d.mod_.refLost then d
  else
    let d := modMod (fun m => { m with refLost := false }) d
    if hostUp d && d.mod_.start = 0 then hostTrain d else d

/-- TICK_SYNC_STUCK (R198, R510): one level for 4 ms while SYNC_IN_EN is 1. -/
def tickSyncStuck (level : Bool) (d : Dev) : Dev :=
  if !d.mod_.rails then d
  else
    let d := setPin 3 level d
    if chipHeld d || !rdBit .tck TCK_CFG 1 d then d
    else
      let d := pinStuck 3 d
      if rdBit .tck TCK_CFG 0 d then enterHoldover { d with tck := { d.tck with syncLost := true } } else d

/-- Pulses counted in the interval, by pin. -/
def countGlitch (pin : Nat) (gs : List (Nat × Nat)) : List (Nat × Nat) := Sparse.set hostInit gs pin (Sparse.get hostInit gs pin + 1)

/-- PIN_GLITCH: a rejected pulse. -/
def pinGlitch (pin : Nat) (d : Dev) : Dev :=
  if !d.mod_.rails || 6 < pin then d
  else modMod (fun m => { m with glitches := countGlitch pin m.glitches }) (wrB .pci PCI_GLITCH pin (rdB .pci PCI_GLITCH pin d + 1) d)

/-- I3C_LINE_STUCK: SCL (4) or SDA (5) low for 10 ms outside a transfer (DEDUCED, log entry 124). -/
def i3cLineStuck (pin : Nat) (d : Dev) : Dev :=
  if !d.mod_.rails || !(pin == 4 || pin == 5) then d
  else
    let d := setPin pin false d
    if chipHeld d then d else pinStuck pin d

/-! ### The commands -/

/-- HOST_MEMORY_READ (R26, R234, R237, R425, R520). -/
def execHostMemoryRead (fn bar off len : Nat) (flaws : List Flaw) (s : State) := s.onDev (hostRead fn bar off len flaws)
/-- HOST_MEMORY_WRITE (R26, R156, R234, R237, R392, R442). -/
def execHostMemoryWrite (fn bar off : Nat) (data : List Byte) (ep : Bool) (s : State) := s.onDev (hostWrite fn bar off data ep)
/-- HOST_CONFIG_REQUEST (R425, R502, R503). -/
def execHostConfigRequest (fn off : Nat) (write : Option Nat) (s : State) := s.onDev (hostConfig fn off write)
/-- HOST_COMPLETION (R416, R507). -/
def execHostCompletion (tag : Nat) (data : List Byte) (s : State) := s.onDev (hostCompletion tag data)
/-- COMPLETION_TIMEOUT (R421, R507). -/
def execCompletionTimeout (fn : Nat) (s : State) := s.onDev (completionTimeout fn)
/-- PF_FLR (R505). -/
def execPfFlr (s : State) := s.onDev fun d => if hostUp d && hostServed d then pfReset d else d
/-- VF_FLR (R505). -/
def execVfFlr (vf : Nat) (s : State) :=
  s.onDev fun d => if hostUp d && hostServed d && decide (1 ≤ vf) && decide (vf ≤ 64) then vfReset vf d else d
/-- HOST_LINK_DOWN (R505). -/
def execHostLinkDown (s : State) := s.onDev hostLinkDown
/-- HOST_TLP_ERROR (R507). -/
def execHostTlpError (e : TlpError) (fn : Nat) (header : List Nat) (s : State) := s.onDev (tlpError e fn header)
/-- REFCLK_LOSS (R515). -/
def execRefclkLoss (s : State) := s.onDev refclkLoss
/-- REFCLK_RETURN (R515). -/
def execRefclkReturn (s : State) := s.onDev refclkReturn
/-- TICK_SYNC_STUCK (R198, R510). -/
def execTickSyncStuck (level : Bool) (s : State) := s.onDev (tickSyncStuck level)
/-- PIN_GLITCH (R510, R517). -/
def execPinGlitch (pin : Nat) (s : State) := s.onDev (pinGlitch pin)
/-- I3C_LINE_STUCK (R510). -/
def execI3cLineStuck (pin : Nat) (s : State) := s.onDev (i3cLineStuck pin)

end Sys2Proof.Machine
end

