-- ==== Sys2Proof/Machine/I3c.lean ====
section
/-! DEFINITION. The tray controller's commands over I3C (R513, R514). -/

namespace Sys2Proof.Machine

/-- The target serves while the module has power (R511); a transfer shows both lines released. -/
def i3cServe (f : Dev → Dev) (d : Dev) : Dev := if d.mod_.rails then f (setPin 4 true (setPin 5 true d)) else d

def i3cAnswer (bs : List Byte) (d : Dev) : Dev := { d with out := .i3c bs :: d.out }

/-- A read: all zero bytes while the chip is in reset. -/
def i3cRead (n : Nat) (v : Dev → Nat) (d : Dev) : Dev :=
  i3cServe (fun d => i3cAnswer (if chipHeld d then List.replicate n 0 else toBytes n (v d)) d) d

/-- ENTDAA: the target shows its provisional ID, random but for the serial number in [31:0], with BCR and DCR, and takes the dynamic address. -/
def entdaa (serial addr : Nat) (d : Dev) : Dev :=
  i3cServe (fun d => { wrF .pci PCI_I3C 0 7 addr (freeNext d) with
    out := .i3cDaa (serial % 2 ^ 32 + freeNow d % 2 ^ 16 * 2 ^ 32) true 0 :: d.out }) d

/-- ENEC: in-band interrupts are enabled. -/
def enec (d : Dev) : Dev := i3cServe (wrBit .pci PCI_I3C 7 true) d

/-- SET_DEVNUM: the number is deposited. -/
def setDevnum (n : Nat) (d : Dev) : Dev := i3cServe (fun d => wrF .pci PCI_I3C 8 15 n (wrBit .pci PCI_I3C 23 true d)) d

/-- SET_CAP: a write access of class 6 to PWR_CAP_TRAY on the target's own path (R58, R452, R486); to a block in reset it is dropped (R53). While the chip is
in reset, or has not started, there is no block to write. -/
def setCap (watts : Nat) (d : Dev) : Dev :=
  i3cServe (fun d =>
    let org : Org := ⟨6, bits (rd .pci PCI_I3C d) 0 7⟩
    let a := blkBase .pwr + PWR_CAP_TRAY
    if chipHeld d || d.mod_.start ≠ 0 then d
    else if inReset .pwr d then
      appendLog { cls := 6, id := org.id, addr := a, new := watts % 65536, inReset := true } d
    else if !allows .pwr 6 d then denyAt false org .pwr a (watts % 65536) d
    else
      let v := clampCap (watts % 65536) d
      logWrite org a (rd .pwr PWR_CAP_TRAY d) v false (wr .pwr PWR_CAP_TRAY v d)) d

/-- GET_STATUS: RST_BOOT, PWR_BUDGET[15:0], PWR_IN[15:0]. -/
def statusWord (d : Dev) : Nat :=
  regVal .rst RST_BOOT d + bits (regVal .pwr PWR_BUDGET d) 0 16 * 2 ^ 32 + bits (regVal .pwr PWR_IN d) 0 16 * 2 ^ 48
/-- GET_POWER: PWR_IN, PWR_ENERGY. -/
def powerWord (d : Dev) : Nat :=
  regVal .pwr PWR_IN d + regVal .pwr PWR_ENERGY_LO d * 2 ^ 32 + regVal .pwr (PWR_ENERGY_LO + 4) d * 2 ^ 64
/-- GET_ALERT: GLB_EVENT, AGE EVENT. -/
def alertWord (d : Dev) : Nat := glbEvent d + regVal .age R_EVENT d * 2 ^ 32

/-- GET_ID: SEL_SERIAL, GLB_GRADE and the version of the booted management image, also while the chip is in reset
(DEDUCED, log entry 125). -/
def getId (fz : FuseSt) (d : Dev) : Dev :=
  i3cServe (fun d => i3cAnswer (toBytes 8 fz.serial ++ toBytes 4 (gradeWord fz) ++ toBytes 4 d.sel.mgmtVer) d) d

/-- The codes of R513. -/
def i3cKnown (code : Nat) : Bool := decide (1 ≤ code) && decide (code ≤ 7)

/-- I3C_BAD_COMMAND: an unknown code is NACKed and counted. -/
def i3cBad (code : Nat) (d : Dev) : Dev :=
  if i3cKnown code then d
  else i3cServe (fun d =>
    { wrF .pci PCI_I3C 24 8 (sat 255 (rdF .pci PCI_I3C 24 8 d + 1)) d with out := .i3cNack :: d.out }) d

/-! ### The commands -/

/-- ENTDAA (R513). -/
def execEntdaa (addr : Nat) (s : State) := s.onDev (entdaa s.fuses.serial addr)
/-- ENEC (R514). -/
def execEnec (s : State) := s.onDev enec
/-- SET_DEVNUM (R32, R513). -/
def execSetDevnum (n : Nat) (s : State) := s.onDev (setDevnum n)
/-- SET_CAP (R452, R513). -/
def execSetCap (watts : Nat) (s : State) := s.onDev (setCap watts)
/-- GET_STATUS (R513). -/
def execGetStatus (s : State) := s.onDev (i3cRead 8 statusWord)
/-- GET_POWER (R513). -/
def execGetPower (s : State) := s.onDev (i3cRead 12 powerWord)
/-- GET_THERMAL (R513): PWR_THERM. -/
def execGetThermal (s : State) := s.onDev (i3cRead 4 (regVal .pwr PWR_THERM))
/-- GET_ALERT (R513). -/
def execGetAlert (s : State) := s.onDev (i3cRead 8 alertWord)
/-- GET_ID (R513). -/
def execGetId (s : State) := s.onDev (getId s.fuses)
/-- I3C_BAD_COMMAND (R513). -/
def execI3cBadCommand (code : Nat) (s : State) := s.onDev (i3cBad code)

end Sys2Proof.Machine
end

