-- ==== Sys2Proof/Machine/Jtag.lean ====
section
/-! DEFINITION. The IEEE 1149.1 TAP (R483, R518). -/

namespace Sys2Proof.Machine

/-- An instruction is selected and its register shifted out; the TAP works while the module has power. -/
def tapRun (code : Nat) (f : Dev → Dev) (d : Dev) : Dev :=
  if d.mod_.rails then f { d with mod_ := { d.mod_ with tap := code } } else d

def shiftOut (n v : Nat) (d : Dev) : Dev := { d with out := .tdo n v :: d.out }

/-- The one-bit register of BYPASS, which captures 0. -/
def bypassed (d : Dev) : Dev := shiftOut 1 0 d

/-- The IDCODE of a grade. -/
def idWord (fz : FuseSt) : Nat := if fz.grade % 4 = 1 then 0x19A0AA7B else 0x19A09A7B

/-- The pin levels captured, in the order of their codes (log entry 31). -/
def captured (d : Dev) : Dev := shiftOut 7 (bits d.mod_.pins 0 7) d

/-- The module's outputs driven: PGOOD, ALERT_n, TICK_SYNC_OUT. -/
def drivePins (levels : Nat) (d : Dev) : Dev :=
  { d with out := (((List.range 3).map fun i => Out.pin i (bit levels i)).reverse) ++ d.out }

/-- EXTEST: acts as BYPASS unless the chip is in reset. -/
def extest (levels : Nat) (d : Dev) : Dev :=
  if d.mod_.trayHeld || d.mod_.supplyHeld then captured (drivePins levels d) else bypassed d

/-- DBGREG: a 64-bit register access of class 4 while the debug port is unlocked; else reads return 0 and writes are discarded
(DEDUCED, log entry 126). -/
def dbgAccess (addr : Nat) (write : Option Nat) (d : Dev) : Dev :=
  let open_ := d.sel.debug && !chipHeld d && widthOk addr 8
  match write with
  | some v => if open_ then writeAccess ⟨4, 0⟩ addr 8 v d else d
  | none =>
    if open_ && lcwWaits ⟨4, 0⟩ addr d then readAccess ⟨4, 0⟩ addr 8 [] d
    else if open_ then
      let r := doRead ⟨4, 0⟩ addr 8 [] d
      shiftOut 64 r.2 r.1
    else shiftOut 64 0 d

/-- An instruction code without a meaning of its own. -/
def tapBypass (code : Nat) (d : Dev) : Dev :=
  if [1, 2, 3, 0x10].contains (code % 256) then d else tapRun (code % 256) bypassed d

/-! ### The commands -/

/-- BYPASS (R518): code 0xFF and every code that no other instruction has. -/
def execBypass (code : Nat) (s : State) := s.onDev (tapBypass code)
/-- IDCODE (R518). -/
def execIdcode (s : State) := s.onDev (tapRun 1 (shiftOut 32 (idWord s.fuses)))
/-- SAMPLE_PRELOAD (R518). -/
def execSamplePreload (s : State) := s.onDev (tapRun 2 captured)
/-- EXTEST (R518). -/
def execExtest (levels : Nat) (s : State) := s.onDev (tapRun 3 (extest levels))
/-- DBGREG (R483, R518). -/
def execDbgreg (addr : Nat) (write : Option Nat) (s : State) := s.onDev (tapRun 0x10 (dbgAccess addr write))
/-- TAP_RESET (R518): IDCODE is selected. -/
def execTapReset (s : State) := s.onDev fun d => if d.mod_.rails then { d with mod_ := { d.mod_ with tap := 1 } } else d

end Sys2Proof.Machine
end

