-- ==== Sys2Proof/Machine/Stitch.lean ====
section
/-! DEFINITION. The Stitch (R192 to R219): frames, the armed changes and context entries due, seams, ticks, and what else happens at the edge
(R265, R272, R327, R378, R516, R517). -/

namespace Sys2Proof.Machine

/-! ### Frames (R200, R201, R204, R205) -/

/-- The wait that holds a stream: its flag, when the target has not been reached. -/
def heldWait (c : CoreRef) (st : Nat) (d : Dev) : Option Nat :=
  match (getStream c st d).wait with
  | some w => if w.ready || flagReached (coreCtx c d) w.flag w.target d then none else some w.flag
  | none => match examine c st d with | .wait f _ => some f | _ => none

/-- Every started slot of the stream has completed, remote writes acknowledged. -/
def slotsOver (c : CoreRef) (st : Nat) (d : Dev) : Bool :=
  let x := getCore c d
  !(x.jobs.any fun j => j.stream == st && decide (j.phase ≠ .done)) && !(x.upds.any fun u => u.stream == st) &&
    !(d.net.reqs.any fun r => match r.by_ with | .sync k s _ _ => decide (k = c) && s == st | _ => false)

/-- R201: the stream has finished its frame. -/
def frameOver (c : CoreRef) (st : Nat) (d : Dev) : Bool :=
  (getStream c st d).seam || (slotsOver c st d && (heldWait c st d == some stitchFlag || sHead c st d == sTail c st d))

/-- The blocks a started slot needs. -/
def workBlks (c : CoreRef) (w : Work) : List Blk :=
  .lmm c :: (match unitOf w with
    | 0 => [.arr c, .fed c]
    | 1 => [if isMatrix c then .vec c else .seq c]
    | 3 | 4 => [.txb c]
    | 5 => [.str c.die c.cl 0]
    | 6 => [.str c.die c.cl 1]
    | _ => [.seq c])

/-- A started slot is held by a unit in its safe state or behind a quarantined set. -/
def slotHeld (c : CoreRef) (st : Nat) (d : Dev) : Bool :=
  let a := (getCore c d).arr
  (getCore c d).jobs.any fun j => j.stream == st && decide (j.phase ≠ .done) &&
    ((workBlks c j.work).any (isSafe · d) || (unitOf j.work == 0 && (a.set0.quar || a.set1.quar)) ||
      (a.drains.any fun r => r.job == j.id && drainHeld c r d))

/-- R204: the code of the first row that applies (DEDUCED, log entry 64). -/
def overrunCause (c : CoreRef) (st : Nat) (d : Dev) : Nat :=
  let k := if stopped c st d then stopCause c st d else 0
  if [4, 5, 6].contains k || slotHeld c st d then 4
  else if [1, 2, 7].contains k then 1
  else if k = 3 || (heldWait c st d).isSome then 2
  else if throttled (c.die * 8 + c.cl) d then 3
  else 1

/-- The streams that overrun, in the order of R205: context, core, stream, cause, throttled. -/
def overruns (d : Dev) : List (Nat × CoreRef × Nat × Nat × Bool) :=
  ((List.range 64).filter fun x => framed x d).flatMap fun x => (ctxCores x d).flatMap fun c =>
    ((List.range (nStreams c)).filter fun n => streamOn c n d && !frameOver c n d).map fun n =>
      (x, c, n, overrunCause c n d, throttled (c.die * 8 + c.cl) d)

/-- One overrun is latched, counted and, when none is held, recorded (R204, R205), with the core's logical number `lg` as the frame ended. -/
def recordOverrun (m : Nat) (x : Nat × CoreRef × Nat × Nat × Bool) (lg : Nat) (d : Dev) : Dev :=
  let (ctx, c, n, cause, thr) := x
  let d := wrB .tck TCK_OVR_CNT ctx (rdB .tck TCK_OVR_CNT ctx d + 1) (latch (.seq c) cFrameOverrun d)
  if rdBit .tck TCK_OVR 31 d then d
  else wr64 .tck TCK_OVR_NUM_LO m (wr .tck TCK_OVR
    (ctx + coreTy c * 64 + lg % 256 * 256 + n * 65536 + cause * 2 ^ 20 + b2n thr * 2 ^ 23 + 2 ^ 31) d)

/-- C and B from the values in force (R202). -/
def budgets (d : Dev) : Dev :=
  let l := rdF .tck TCK_LEN 0 15 d
  wr .tck TCK_BUDGET (budgetOf l (commitMhz d) (rdF .tck TCK_GUARD 0 7 d)) (wr .tck TCK_CYCLES (cyclesOf l (commitMhz d)) d)

/-- TCK brings the stitch flag of each framed context to the stitch number (R200). -/
def stitchFlags (m : Nat) (d : Dev) : Dev :=
  ((List.range 64).filter fun x => framed x d).foldl (fun d x =>
    flagAdd x stitchFlag ((m + 2 ^ 64 - flagVal x stitchFlag d) % 2 ^ 64) d) d

/-! ### Armed changes (R213 to R216, R219) -/

/-- Why a block does not apply: the first reason in the order 3, 1, 4, 2; with TCK in its safe state, reason 1 (DEDUCED, log entry 68). -/
def missReason (a : Armed) (acked : Bool) (b : Blk) (d : Dev) : Option Nat :=
  if isSafe .tck d then some 1
  else if inReset b d || a.reset.contains (blkBase b) then some 3
  else if !acked then some 1
  else if isSafe b d then some 4
  else if fenced b d then some 2
  else none

/-- The block has acknowledged every pair it is to apply; shadow values it holds from the arm on. -/
def blkAcked (a : Armed) (b : Blk) (d : Dev) : Bool :=
  (List.range a.pairs.length).all fun k => pairBlk a k d != some b || a.acked.contains k

/-- The blocks that miss an entry, with their reasons. -/
def misses (a : Armed) (d : Dev) : List (Blk × Nat) :=
  (armedBlks a d).filterMap fun b => (missReason a (blkAcked a b d) b d).map fun r => (b, r)

/-- A miss is listed, or counted as lost, and the block fenced (R214). -/
def listMiss (e : Nat) (b : Blk) (reason : Nat) (d : Dev) : Dev :=
  let d := latch .tck cApplyMiss d
  let d := match (List.range 32).find? fun i => !bit (rdB .tck TCK_MISS_INFO i d) 8 with
    | some i => wrF .tck TCK_MISS_CNT 0 6 (rdF .tck TCK_MISS_CNT 0 6 d + 1)
        (wrB .tck TCK_MISS_INFO i (e + reason * 16 + 256) (wrB .tck TCK_MISS i (blkId b) d))
    | none => bumpSat .tck TCK_MISS_CNT 8 8 d
  let old := rd b R_CTRL d
  let d := wrBit b R_CTRL 1 true d
  match b with
  | .lnk k i => lnkFence (8 * k + i) old d
  | _ => d

/-- One register of a context entry takes its shadow value (R216). -/
def applyShadow (armed : Bool) (org : Org) (s : Nat × Nat × Nat) (d : Dev) : Dev :=
  match keyBlock s.1 with
  | none => d
  | some b =>
    if s.2.1 = 0 then d
    else
      let old := rdKey d s.1
      let new := (old &&& (all32 - s.2.1)) ||| (s.2.2 &&& s.2.1)
      let a := s.1 % bankStep
      let d := logWrite org a old new armed (wrKey s.1 new { d with parityBad := Sparse.unmark d.parityBad s.1 })
      let on := bit new 0 && !bit old 0
      match b with
      | .seq c => match streamAt c (regOff a) with
        | some (n, q) => if q = S_CTL && on then streamEnabled c n d else d
        | none => d
      | .prs 0 =>
        let ctx := s.1 / bankStep - 1
        if regOff a ≠ PRS_CTL then d
        else if on then pressEnabled ctx d else if !bit new 0 && bit old 0 then pressDisabled ctx d else d
      | .msh k r => if regOff a = MSH_TBL && old != new then let p := routerPos k r; bankTaken (posOf p.1 p.2) d else d
      | _ => d

/-- The shadow values of an entry in ascending offset order. -/
def shadowOrder (ss : List (Nat × Nat × Nat)) : List (Nat × Nat × Nat) :=
  sortLe (fun x y => decide (x.1 % bankStep < y.1 % bankStep) || (x.1 % bankStep == y.1 % bankStep && decide (x.1 ≤ y.1))) ss

/-- What follows when an entry has applied in every block (R258, R273, R407). -/
def entryDone (a : Armed) (d : Dev) : Dev :=
  match a.after with
  | .none => d
  | .bind ctx => bindApplied ctx d
  | .unbind ctx => unbindApplied ctx d
  | .resume ctx => snpPhase ctx 0 (modSnap ctx (fun x => { x with restored := false }) (modSeam ctx (fun s => { s with start := stitchNum d }) d))

/-- One entry applies in the blocks that do not miss it. -/
def applyEntry (x : Nat × Armed × List (Blk × Nat)) (d : Dev) : Dev :=
  let (e, a, ms) := x
  let out (b : Option Blk) : Bool := b.any fun b => ms.any fun m => decide (m.1 = b)
  let d := a.pairs.foldl (fun d p =>
    if out (blkOf a.org p.1 d) then d
    else match physOffset a.org p.1 d with | some q => regWrite true a.org q p.2 d | none => d) d
  let d := (shadowOrder (a.shadow.filter fun s => !out (keyBlock s.1))).foldl (fun d s => applyShadow true a.org s d) d
  let rest := a.shadow.filter fun s => out (keyBlock s.1)
  if rest.isEmpty then entryDone a d
  else modTck (fun t => { t with late := t.late ++ [(e, { a with shadow := rest })] }) d

/-- Entries join the ring in turn from sequence number `s` on. -/
def joinLogs (s : Nat) (l : LogSt) : List LogEntry → LogSt
  | [] => l
  | e :: es => joinLogs (s + 1) (joinLog s e l) es

/-- The entries that joined the chain since `before`, all in one mesh cycle, take their sequence numbers in ascending ADDR order (R488); those of one
address keep theirs (DEDUCED, log entry 155). -/
def cycleOrder (before d : Dev) : Dev :=
  let s := rd64 .log LOG_SEQ_LO before
  let n := rd64 .log LOG_SEQ_LO d - s
  let es := lastEntries d.log n
  let sorted := sortLe (fun (x y : LogEntry) => decide (x.addr ≤ y.addr)) es
  if es.length ≠ n || decide (sorted = es) then d
  else
    let l := joinLogs s before.log sorted
    { d with log := { d.log with ring := l.ring, hashes := l.hashes } }

/-- The entries due at Stitch `m`: they leave the table, apply in the order of their Stitches and for one Stitch in arm order (R215), and the blocks
that miss them are listed. -/
def applyArmed (m : Nat) (d : Dev) : Dev :=
  let due := (sortLe (fun (x y : Nat × Armed) => decide (x.2.n ≤ y.2.n)) (d.tck.armed.filter fun a => decide (a.2.n ≤ m))).map fun a =>
    (a.1, a.2, misses a.2 d)
  let d := dropArmed (fun a => decide (a.2.n ≤ m)) d
  let len := due.find? fun x => x.2.1.pairs.any fun p => physOffset x.2.1.org p.1 d == some (regKey .tck TCK_LEN)
  let d := match len with | some x => modTck (fun t => { t with lenArm := some (m, x.1) }) d | none => d
  let d := cycleOrder d (due.foldl (fun d x => applyEntry x d) d)
  due.foldl (fun d x => x.2.2.foldl (fun d b => listMiss x.1 b.1 b.2 d) d) d

/-- The unit that armed an entry brings its blocks level; the Marker does in its safe state too, in which a refit that runs completes (R275). -/
def armerRuns (org : Org) (d : Dev) : Bool :=
  if org.cls = 8 then basteRuns d else !inReset .mrk d && (isSafe .mrk d || rdBit .mrk R_CTRL 0 d)

/-- The arming unit brings listed blocks level once they are out of reset and of their safe state: it writes the values and LEVELLED and clears
FENCE, with its own origin (R216). -/
def levelLate (d : Dev) : Dev :=
  d.tck.late.foldl (fun d x =>
    let (e, a) := x
    let ready (b : Blk) : Bool := armerRuns a.org d && !inReset b d && !isSafe b d
    let ok (s : Nat × Nat × Nat) : Bool := (keyBlock s.1).any ready
    let bs := ((a.shadow.filter ok).filterMap fun s => keyBlock s.1).eraseDups
    let d := (shadowOrder (a.shadow.filter ok)).foldl (fun d s => applyShadow false a.org s d) d
    let d := bs.foldl (fun d b =>
      let d := match (List.range 32).find? fun i =>
          bit (rdB .tck TCK_MISS_INFO i d) 8 && bits (rdB .tck TCK_MISS_INFO i d) 0 4 == e && rdB .tck TCK_MISS i d == blkId b with
        | some i =>
          let old := rdB .tck TCK_MISS_INFO i d
          logWrite a.org (regKey .tck TCK_MISS_INFO) old 512 false (levelEntry i d)
        | none => d
      if missListed b d then d
      else match regSpec b R_CTRL with
        | some s => regTake false a.org b s (blkBase b + R_CTRL) 0 (rd b R_CTRL d &&& 1) d
        | none => d) d
    let rest := a.shadow.filter fun s => !ok s
    let d := modTck (fun t => { t with late := t.late.filterMap fun y =>
                                         if y = x then (if rest.isEmpty then none else some (e, { a with shadow := rest })) else some y }) d
    if rest.isEmpty then entryDone a d else d) d

/-! ### Seams (R206 to R210) -/

/-- The root announces the seams whose whole tree has arrived: they complete LEAD Stitches from now. -/
def announces (m : Nat) (d : Dev) : List Nat × Dev :=
  if !rdBit .tck TCK_CFG 0 d then ([], d)
  else
    let xs := (d.tck.seams.filter fun s => joined s.1 d && !anyHeld s.1 d && s.2.due.isNone && (s.2.own.isSome || !s.2.kids.isEmpty)).map (·.1)
    (xs, xs.foldl (fun d x => modSeam x (fun s => { s with due := some (m + rdF .tck TCK_SEAM 0 4 d) }) d) d)

/-- A seam of a context completes at Stitch `m` (R207, R210): its streams go on, overflow frames are counted, and the segment starts. -/
def seamComplete (m ctx : Nat) (d : Dev) : Dev :=
  let planned := (getSeam ctx d).start + bits (rdB .tck TCK_SEG ctx d) 0 16
  let there := !(ctxCores ctx d).isEmpty
  let d := if there && decide (planned < m) then wrB .tck TCK_OVF_CNT ctx (rdB .tck TCK_OVF_CNT ctx d + (m - planned)) d else d
  let d := (ctxCores ctx d).foldl (fun d c => modCore c (fun x => { x with streams := x.streams.map fun s => { s with seam := false } }) d) d
  let d := modSeam ctx (fun _ => { start := m }) d
  let d := captureLanded ctx (modBound ctx (fun j => { j with seams := j.seams + 1 }) d)
  let d := match jobAt ctx d with
    | some j => if j.phase = 1 && j.seams % j.pat.epochSegs = 0 then epochWear ctx (bump64 .mrk MRK_EPOCH_LO 1 d) else d
    | none => d
  unbindSeam ctx d

def seamsDue (m : Nat) (d : Dev) : Dev :=
  ((d.tck.seams.filter fun s => s.2.due.any (decide <| · ≤ m)).map (·.1)).foldl (fun d x => seamComplete m x d) d

/-! ### Other things at the edge -/

/-- A congestion-map record (R327). One that the near store cannot take is not complete (DEDUCED, log entry 65). -/
def cmapRecord (n cycles : Nat) (d : Dev) : Dev :=
  if !rdBit .fab FAB_CMAP_CTL 0 d || isSafe .fab d || inReset .fab d then d
  else
    let slot := n % max 1 (rdF .fab FAB_CMAP_CTL 1 11 d)
    let k := gOff (rd64 .fab FAB_CMAP_BASE_LO d) + 0x8000 * slot
    let v (i : Nat) : Nat := histShown i d
    let ports := (List.range 192).flatMap fun p =>
      let r := routerAt (posX p) (posY p)
      (List.range 10).flatMap fun q => (List.range 4).map fun b => if portThere r.1 r.2 q then v (64 * p + q + 16 * b) else 0
    let links := (List.range 32).flatMap fun l => [0, 1].flatMap fun s => (List.range 4).map fun b => v (12288 + 8 * l + s + 2 * b)
    let bs := toBytes 8 n ++ toBytes 4 cycles ++ List.replicate 52 0 ++ (ports ++ links).flatMap (toBytes 4) ++ List.replicate 960 0
    let shut := (gransOf k 0x8000).any fun g => let b := keyBlk g d; inReset b d || idle b d
    if nearSize < k + 0x8000 || shut || windowHit k 0x8000 d then setEvent .fab 9 d
    else wrF .fab FAB_CMAP_CTL 16 10 slot (memPut k bs d)

/-- The pin-event records of the interval (R517). -/
def pinRecords (n : Nat) (d : Dev) : Dev :=
  let ps := (List.range 7).filterMap fun p => (d.mod_.glitches.find? fun g => g.1 == p && g.2 != 0)
  if ps.isEmpty then d
  else
    let d := ps.foldl (fun d g =>
      let e := d.host.pinNext % 16
      let d := wrB64 .pci PCI_PINLOG_NUM_LO e n (wrB .pci PCI_PINLOG e (g.1 + sat (2 ^ 24 - 1) g.2 * 256) d)
      { d with host := { d.host with pinNext := d.host.pinNext + 1 } }) d
    setEvent .pci 8 (modMod (fun m => { m with glitches := [] }) d)

/-- Fresh values stand for the occupancy of the interval just ended (R299, R328) and for the requests that have lost arbitration
(R148) (DESIGN CHOICE, log entry 66). -/
def newHists (d : Dev) : Dev := freeSkip 143616 { d with histBase := some d.free }

/-- The contexts whose stop is due. -/
def stopsDue (d : Dev) : Dev :=
  let xs := d.tck.stops
  xs.foldl (fun d x => contextReset x.1 x.2 d) (modTck (fun t => { t with stops := [] }) d)

/-- TCK runs: enabled, or in its safe state, in which it keeps counting (R219) (DEDUCED, log entry 72). -/
def tckRuns (d : Dev) : Bool := !chipHeld d && !inReset .tck d && (rdBit .tck R_CTRL 0 d || isSafe .tck d)

/-- STITCH (R193). The frames of the interval just ended are judged; the number increases; what is armed for it applies ahead of any other
access, and the overruns latch after it (R39); then the Marker's moves, stitch flags, seams, Press flips, records, ticks, and the resets of contexts that stop. -/
def stitch (d : Dev) : Dev :=
  if !tckRuns d then d
  else
    let n := stitchNum d
    let m := (n + 1) % 2 ^ 64
    let ran := overruns d
    let cycles := d.cycle
    let d := match d.net.holding with
      | some t => countHold (cycles - t) { d with net := { d.net with holding := some 0 } }
      | none => d
    let d := ((d.jobs.filter fun j => j.phase == 1).map (·.ctx)).foldl (fun d x => waitPair x d) d
    let missed := if parentLink d == none || d.tck.ticked then 0 else d.tck.missed + 1
    let d := wr64 .tck TCK_NUM_LO m { d with cycle := 0, tck := { d.tck with ticked := false, missed := missed } }
    let names := ran.map fun x => (logicalOf x.2.1 d).getD 0
    let d := newHists (tapeStitch (levelLate d))
    let d := (ran.zip names).foldl (fun d x => recordOverrun m x.1 x.2 d) (applyArmed m d)
    let d := budgets d
    let d := stitchFlags m (balance d)
    let d := (d.press.map (·.1)).foldl (fun d x => pressFlip x d) d
    let d := seamsDue m d
    let a := announces m d
    let d := sendTicks (rdF .tck TCK_SEAM 0 4 d) ((a.1.map (2 ^ ·)).sum) (childLinks a.2) a.2
    let d := pinRecords n (cmapRecord n cycles d)
    let d := tablesArm (((d.jobs.filter fun j => j.phase == 4).map (·.ctx)).foldl (fun d x => unbindArm x d) d)
    let d := { d with out := .pin 2 false :: .pin 2 true :: d.out }
    let d := ((ran.map (·.1)).eraseDups).foldl (fun d x => contextReset x 1 d) d
    stopsDue d

/-! ### Peers that are lost (R198, R209) -/

/-- PEER_LOST with its record: device, context and source (R329). -/
def peerLost (dev ctx source : Nat) (d : Dev) : Dev :=
  latchWith .fab cPeerLost (fun d => wr .fab FAB_LOST (dev % 32768 + ctx * 65536 + source * 2 ^ 24) d) d

/-- The device whose silence a barrier timeout records (R209). -/
def silentDev (ctx : Nat) (d : Dev) : Nat :=
  let s := getSeam ctx d
  let kids := ((childLinks d).filter fun l => !s.kids.any fun k => k.1 == l).map fun l => neighbourDev l d
  match kids with
  | k :: ks => ks.foldl min k
  | [] => if s.own.isNone then ownDev d else match parentLink d with | some l => neighbourDev l d | none => ownDev d

/-- SEAM_TIMEOUT (R209, R268): the barrier of a bound context has not completed in time, and no arrival is held (DEDUCED, log entry 67). -/
def seamTimeout (ctx : Nat) (d : Dev) : Dev :=
  let s := getSeam ctx d
  let out := rdF .tck TCK_SEAM 8 8 d
  let planned := s.start + bits (rdB .tck TCK_SEG ctx d) 0 16 + out
  let own := match s.own with | some t => t + out | none => 0
  if !bound ctx d || anyHeld ctx d || stitchNum d < max own planned then d
  else contextReset ctx 6 (peerLost (silentDev ctx d) ctx 1 d)

/-- HOLD_EXPIRED, found here or told from above: every framed context stops at the next Stitch (R198). -/
def holdExpired (d : Dev) : Dev :=
  if d.tck.expired then d
  else
    let xs := (List.range 64).filter fun x => framed x d
    peerLost (rootDev d) 0 2 (modTck (fun t => { t with expired := true, stops := t.stops ++ xs.map fun x => (x, 6) }) d)

/-- HOLDOVER_ENTRY (R198): 0 four ticks missing, 1 the parent's tick link is not UP, 2 no edge at the root. -/
def holdoverEntry (cause : Nat) (d : Dev) : Dev :=
  let root := rdBit .tck TCK_CFG 0 d
  match cause with
  | 0 => if !root && decide (4 ≤ d.tck.missed) then enterHoldover d else d
  | 1 => if !root && (parentLink d).any (fun l => !linkUp l d) then enterHoldover d else d
  | 2 => if root && rdBit .tck TCK_CFG 1 d then enterHoldover (modTck (fun t => { t with syncLost := true }) d) else d
  | _ => d

/-- HOLDOVER_EXPIRY (R198): holdover has lasted for the limit. -/
def holdoverExpiry (d : Dev) : Dev :=
  if d.tck.holdover then holdExpired (wrF .tck TCK_HOLD 0 14 (rdF .tck TCK_HOLD 16 14 d) d) else d

/-- A good tick or edge: after 16 the device is aligned, and holdover ends (R197, R198). Only a tick whose offset is out of bounds ends the run of 16, a
missing one does not (DESIGN CHOICE, log entry 152). -/
def goodTick (good : Bool) (d : Dev) : Dev :=
  let d := modTck (fun t => { t with good := if good then t.good + 1 else 0 }) d
  if 16 ≤ d.tck.good then
    let d := if d.tck.holdover then holdoverEnds d else d
    modTck (fun t => { t with aligned := true, good := 16 }) d
  else d

/-- An announcement for a context whose seam stands here (R207, R208) (DEDUCED, log entry 71). -/
def announced (at_ ctx : Nat) (d : Dev) : Dev :=
  let s := getSeam ctx d
  if s.due.isSome || !(s.sent || s.own.isSome || !s.kids.isEmpty) then d
  else if at_ ≤ stitchNum d then
    setEvent .tck 9 (bumpSat .tck TCK_SEAM 16 16 (modSeam ctx (fun s => { s with due := some (stitchNum d + 1) }) d))
  else modSeam ctx (fun s => { s with due := some at_ }) d

/-- Another stitch length in the tick after the Stitch of an armed change of it (R214, reason 5). -/
def lenMismatch (t : Tick) (d : Dev) : Dev :=
  match d.tck.lenArm with
  | some (n, e) =>
    if n = t.snum && t.slen ≠ rdF .tck TCK_LEN 0 15 d then
      let xs := (List.range 64).filter fun x => framed x d
      xs.foldl (fun d x => contextReset x 6 d) (listMiss e .tck 5 (modTck (fun t => { t with lenArm := none }) d))
    else d
  | none => d

/-- TICK_MESSAGE (R196 to R198, R207, R208): a tick over the parent's link; `offset` is the measured offset in tenths of a nanosecond.
The TICK fields of a replayed block are ignored (R307 rule 4). -/
def tickMessage (link : Nat) (rx : TickRx) (offset : Int) (d : Dev) : Dev :=
  if !tckRuns d || parentLink d != some link || rx.replay then d
  else
    let t := rx.tick
    let d := if stitchNum d = t.snum then d else wr64 .tck TCK_NUM_LO t.snum d
    let d := wrF .tck TCK_OFFSET 0 16 (wrap 16 offset) (modTck (fun x => { x with ticked := true, missed := 0 }) d)
    let d := goodTick (decide (-50 ≤ offset) && decide (offset ≤ 50)) d
    let d := lenMismatch t d
    let d := if t.holdExp then holdExpired d else if d.tck.holdover then d else modTck (fun x => { x with expired := false }) d
    let xs := (List.range 64).filter fun x => bit t.announce x
    let d := xs.foldl (fun d x => announced (t.snum + t.lead) x d) d
    if xs.isEmpty then d else sendTicks t.lead t.announce (childLinks d) d

/-- TICK_SYNC_EDGE (R194, R516): an edge at the root, `periods` of the timebase after the edge used last. -/
def tickSyncEdge (periods : Nat) (d : Dev) : Dev :=
  if !tckRuns d || !rdBit .tck TCK_CFG 0 d || !rdBit .tck TCK_CFG 1 d then d
  else if d.tck.aligned && d.tck.synced && !d.tck.holdover && (decide (periods < 99900) || decide (100100 < periods)) then
    setEvent .pci 10 (bump .pci PCI_PIN_STRAY 1 d)
  else goodTick true (modTck (fun t => { t with synced := true, syncLost := false }) d)

/-! ### The device's arrival at a seam (R206, R266 to R268, R401, R402) -/

/-- DEVICE_SEAM_ARRIVAL: every enabled stream of the context has arrived. The Marker computes the next assignment, a refit or a capture may
withhold the arrival, and else it goes up. -/
def deviceArrival (ctx : Nat) (d : Dev) : Dev :=
  if 64 ≤ ctx || (getSeam ctx d).own.isSome || (ctxCores ctx d).isEmpty || !allArrived ctx d || withheld ctx d then d
  else
    let d := modSeam ctx (fun s => { s with own := some (stitchNum d) }) d
    let d := refitAtSeam ctx (assignTokens ctx d)
    let d := if captureDue ctx d then
        (if basteRuns d then capture ctx d else modSnap ctx (fun x => { x with capturing := true }) d)
      else d
    let d := if withheld ctx d then modSeam ctx (fun s => { s with held := true }) d else d
    seamUp ctx d

/-! ### The commands -/

/-- STITCH (R193). -/
def execStitch (s : State) := s.onDev stitch
/-- SEAM_TIMEOUT (R209). -/
def execSeamTimeout (ctx : Nat) (s : State) := s.onDev (seamTimeout ctx)
/-- TICK_MESSAGE (R196). -/
def execTickMessage (link : Nat) (t : TickRx) (offset : Int) (s : State) := s.onDev (tickMessage link t offset)
/-- DEVICE_SEAM_ARRIVAL (R206). -/
def execDeviceSeamArrival (ctx : Nat) (s : State) := s.onDev (deviceArrival ctx)
/-- TICK_SYNC_EDGE (R194). -/
def execTickSyncEdge (periods : Nat) (s : State) := s.onDev (tickSyncEdge periods)
/-- HOLDOVER_ENTRY (R198). -/
def execHoldoverEntry (cause : Nat) (s : State) := s.onDev (holdoverEntry cause)
/-- HOLDOVER_EXPIRY (R198). -/
def execHoldoverExpiry (s : State) := s.onDev holdoverExpiry

end Sys2Proof.Machine
end

