-- ==== Sys2Proof/Machine/Dispatch.lean ====
section
/-! DEFINITION. The dispatch: one meaning for each command. -/

namespace Sys2Proof.Machine

def exec (i : Instr) (s : State) : Host.Outcome State Fault Refusal :=
  match i with
  | .registerWrite org addr len val => Sys2Proof.Machine.execRegisterWrite org addr len val s
  | .counterLoRead org addr => Sys2Proof.Machine.execCounterLoRead org addr s
  | .parityScan b flips => Sys2Proof.Machine.execParityScan b flips s
  | .resetReq org b view val => Sys2Proof.Machine.execResetReq org b view val s
  | .lcwAccessRelease => Sys2Proof.Machine.execLcwAccessRelease s
  | .arrayCycle c throttle failed => Sys2Proof.Machine.execArrayCycle c throttle failed s
  | .feederRead c f => Sys2Proof.Machine.execFeederRead c f s
  | .feederBankData c f => Sys2Proof.Machine.execFeederBankData c f s
  | .swap c => Sys2Proof.Machine.execSwap c s
  | .drainStart c => Sys2Proof.Machine.execDrainStart c s
  | .drainComplete c => Sys2Proof.Machine.execDrainComplete c s
  | .loadStart c => Sys2Proof.Machine.execLoadStart c s
  | .loadComplete c => Sys2Proof.Machine.execLoadComplete c s
  | .arrRelease org c val => Sys2Proof.Machine.execArrRelease org c val s
  | .arrDump org c val => Sys2Proof.Machine.execArrDump org c val s
  | .dumpComplete c => Sys2Proof.Machine.execDumpComplete c s
  | .sctAdvance org c val => Sys2Proof.Machine.execSctAdvance org c val s
  | .rngSeed org c val => Sys2Proof.Machine.execRngSeed org c val s
  | .transposeTileComplete c buf => Sys2Proof.Machine.execTransposeTileComplete c buf s
  | .tailWrite c st => Sys2Proof.Machine.execTailWrite c st s
  | .streamEnable org c st val => Sys2Proof.Machine.execStreamEnable org c st val s
  | .streamResume org c st val => Sys2Proof.Machine.execStreamResume org c st val s
  | .streamBaseWrite org c st val => Sys2Proof.Machine.execStreamBaseWrite org c st val s
  | .wordFetch c st => Sys2Proof.Machine.execWordFetch c st s
  | .wordStart c st => Sys2Proof.Machine.execWordStart c st s
  | .scoreboardFull c st => Sys2Proof.Machine.execScoreboardFull c st s
  | .productWord c => Sys2Proof.Machine.execProductWord c s
  | .standaloneDrain c => Sys2Proof.Machine.execStandaloneDrain c s
  | .standaloneLoad c => Sys2Proof.Machine.execStandaloneLoad c s
  | .vxAdd c => Sys2Proof.Machine.execVxAdd c s
  | .vxSub c => Sys2Proof.Machine.execVxSub c s
  | .vxMul c => Sys2Proof.Machine.execVxMul c s
  | .vxFma c => Sys2Proof.Machine.execVxFma c s
  | .vxMax c => Sys2Proof.Machine.execVxMax c s
  | .vxMin c => Sys2Proof.Machine.execVxMin c s
  | .vxCvt c => Sys2Proof.Machine.execVxCvt c s
  | .vxRsum c => Sys2Proof.Machine.execVxRsum c s
  | .vxRmax c => Sys2Proof.Machine.execVxRmax c s
  | .vxRng c => Sys2Proof.Machine.execVxRng c s
  | .vxExp c => Sys2Proof.Machine.execVxExp c s
  | .vxLog c => Sys2Proof.Machine.execVxLog c s
  | .vxRsqrt c => Sys2Proof.Machine.execVxRsqrt c s
  | .vxTanh c => Sys2Proof.Machine.execVxTanh c s
  | .dispatch c => Sys2Proof.Machine.execDispatch c s
  | .mvStream c => Sys2Proof.Machine.execMvStream c s
  | .tackPut c => Sys2Proof.Machine.execTackPut c s
  | .tackGet c => Sys2Proof.Machine.execTackGet c s
  | .mvTranspose c => Sys2Proof.Machine.execMvTranspose c s
  | .scLd c st => Sys2Proof.Machine.execScLd c st s
  | .scSt c st => Sys2Proof.Machine.execScSt c st s
  | .syIncDone c st => Sys2Proof.Machine.execSyIncDone c st s
  | .syIncRemoteDone c st => Sys2Proof.Machine.execSyIncRemoteDone c st s
  | .slotComplete c job => Sys2Proof.Machine.execSlotComplete c job s
  | .flagNotice c => Sys2Proof.Machine.execFlagNotice c s
  | .flagWaitTimeout c st => Sys2Proof.Machine.execFlagWaitTimeout c st s
  | .stitch => Sys2Proof.Machine.execStitch s
  | .seamTimeout ctx => Sys2Proof.Machine.execSeamTimeout ctx s
  | .tickMessage link t offset => Sys2Proof.Machine.execTickMessage link t offset s
  | .seamArrivalMessage link ctx held => Sys2Proof.Machine.execSeamArrivalMessage link ctx held s
  | .deviceSeamArrival ctx => Sys2Proof.Machine.execDeviceSeamArrival ctx s
  | .tickSyncEdge periods => Sys2Proof.Machine.execTickSyncEdge periods s
  | .holdoverEntry cause => Sys2Proof.Machine.execHoldoverEntry cause s
  | .holdoverExpiry => Sys2Proof.Machine.execHoldoverExpiry s
  | .armData org val => Sys2Proof.Machine.execArmData org val s
  | .armGo org val => Sys2Proof.Machine.execArmGo org val s
  | .armCancel org val => Sys2Proof.Machine.execArmCancel org val s
  | .armDiscard org val => Sys2Proof.Machine.execArmDiscard org val s
  | .armedPairDelivery entry k => Sys2Proof.Machine.execArmedPairDelivery entry k s
  | .missLevelled org val => Sys2Proof.Machine.execMissLevelled org val s
  | .lmmScrub c line flaws => Sys2Proof.Machine.execLmmScrub c line flaws s
  | .nscScrub d u word flaws => Sys2Proof.Machine.execNscScrub d u word flaws s
  | .fmcScrub d u line flaws => Sys2Proof.Machine.execFmcScrub d u line flaws s
  | .eccWriteback b => Sys2Proof.Machine.execEccWriteback b s
  | .eccWindowEnd b => Sys2Proof.Machine.execEccWindowEnd b s
  | .eccInject org b val => Sys2Proof.Machine.execEccInject org b val s
  | .mapoutNext org d u j val => Sys2Proof.Machine.execMapoutNext org d u j val s
  | .channelFail d u j => Sys2Proof.Machine.execChannelFail d u j s
  | .hostMemoryRead fn bar off len flaws => Sys2Proof.Machine.execHostMemoryRead fn bar off len flaws s
  | .hostMemoryWrite fn bar off data ep => Sys2Proof.Machine.execHostMemoryWrite fn bar off data ep s
  | .hostConfigRequest fn off write => Sys2Proof.Machine.execHostConfigRequest fn off write s
  | .streamTransferBegin d c u => Sys2Proof.Machine.execStreamTransferBegin d c u s
  | .streamTransferComplete d c u => Sys2Proof.Machine.execStreamTransferComplete d c u s
  | .mrkFit org val => Sys2Proof.Machine.execMrkFit org val s
  | .fitting pat => Sys2Proof.Machine.execFitting pat s
  | .mrkUnbind org val => Sys2Proof.Machine.execMrkUnbind org val s
  | .mrkRefitNow org val => Sys2Proof.Machine.execMrkRefitNow org val s
  | .refit ctx => Sys2Proof.Machine.execRefit ctx s
  | .refitHoldExpiry ctx => Sys2Proof.Machine.execRefitHoldExpiry ctx s
  | .migration ctx k => Sys2Proof.Machine.execMigration ctx k s
  | .migrationAbort ctx k => Sys2Proof.Machine.execMigrationAbort ctx k s
  | .meshPacketForward k flaw => Sys2Proof.Machine.execMeshPacketForward k flaw s
  | .injectionHoldRelease => Sys2Proof.Machine.execInjectionHoldRelease s
  | .routerRetire org d r val => Sys2Proof.Machine.execRouterRetire org d r val s
  | .putReceive a => Sys2Proof.Machine.execPutReceive a s
  | .getReceive a flaws => Sys2Proof.Machine.execGetReceive a flaws s
  | .addReceive a => Sys2Proof.Machine.execAddReceive a s
  | .casReceive a => Sys2Proof.Machine.execCasReceive a s
  | .flagAddReceive a => Sys2Proof.Machine.execFlagAddReceive a s
  | .putNotifyReceive a => Sys2Proof.Machine.execPutNotifyReceive a s
  | .ackReceive p => Sys2Proof.Machine.execAckReceive p s
  | .dataReceive p => Sys2Proof.Machine.execDataReceive p s
  | .casOldReceive p => Sys2Proof.Machine.execCasOldReceive p s
  | .nackReceive p => Sys2Proof.Machine.execNackReceive p s
  | .linkBlockReceive l b fec fecOk => Sys2Proof.Machine.execLinkBlockReceive l b fec fecOk s
  | .packetTransmit l => Sys2Proof.Machine.execPacketTransmit l s
  | .txReservation l => Sys2Proof.Machine.execTxReservation l s
  | .linkTrained l peerDev peerLink peerTorus delay => Sys2Proof.Machine.execLinkTrained l peerDev peerLink peerTorus delay s
  | .laneLockLoss l => Sys2Proof.Machine.execLaneLockLoss l s
  | .lnkRetrain org l val => Sys2Proof.Machine.execLnkRetrain org l val s
  | .retrainTimeout l => Sys2Proof.Machine.execRetrainTimeout l s
  | .trainingTimeout l => Sys2Proof.Machine.execTrainingTimeout l s
  | .violationWindowEnd l => Sys2Proof.Machine.execViolationWindowEnd l s
  | .flowRelease org val => Sys2Proof.Machine.execFlowRelease org val s
  | .flowNoprogress flow => Sys2Proof.Machine.execFlowNoprogress flow s
  | .mcReserveReceive p => Sys2Proof.Machine.execMcReserveReceive p s
  | .mcGrantReceive p => Sys2Proof.Machine.execMcGrantReceive p s
  | .mcReserveResend g => Sys2Proof.Machine.execMcReserveResend g s
  | .mcDataInject g => Sys2Proof.Machine.execMcDataInject g s
  | .mcDataReceive p => Sys2Proof.Machine.execMcDataReceive p s
  | .pressUseSend ctx e => Sys2Proof.Machine.execPressUseSend ctx e s
  | .pressOwnerRound ctx e => Sys2Proof.Machine.execPressOwnerRound ctx e s
  | .verdictContribute ctx => Sys2Proof.Machine.execVerdictContribute ctx s
  | .verdictBroadcast ctx => Sys2Proof.Machine.execVerdictBroadcast ctx s
  | .pressEnable org val => Sys2Proof.Machine.execPressEnable org val s
  | .pressFence ctx => Sys2Proof.Machine.execPressFence ctx s
  | .digestCompare ctx d => Sys2Proof.Machine.execDigestCompare ctx d s
  | .pressTrackerAdvance org d val => Sys2Proof.Machine.execPressTrackerAdvance org d val s
  | .captureForward ctx => Sys2Proof.Machine.execCaptureForward ctx s
  | .parityGather ctx j => Sys2Proof.Machine.execParityGather ctx j s
  | .snpRestore org val => Sys2Proof.Machine.execSnpRestore org val s
  | .snpResume org val => Sys2Proof.Machine.execSnpResume org val s
  | .snpSnap org val => Sys2Proof.Machine.execSnpSnap org val s
  | .snapshotComplete ctx => Sys2Proof.Machine.execSnapshotComplete ctx s
  | .snpRelay org val => Sys2Proof.Machine.execSnpRelay org val s
  | .snpRebuild org val => Sys2Proof.Machine.execSnpRebuild org val s
  | .powerEnable => Sys2Proof.Machine.execPowerEnable s
  | .powerDisable => Sys2Proof.Machine.execPowerDisable s
  | .coldStart f => Sys2Proof.Machine.execColdStart f s
  | .bootStepTimeout step => Sys2Proof.Machine.execBootStepTimeout step s
  | .trayResetAssert => Sys2Proof.Machine.execTrayResetAssert s
  | .trayResetRelease => Sys2Proof.Machine.execTrayResetRelease s
  | .chipReset cause => Sys2Proof.Machine.execChipReset cause s
  | .dieReset d cause => Sys2Proof.Machine.execDieReset d cause s
  | .clusterReset d c cause => Sys2Proof.Machine.execClusterReset d c cause s
  | .coreReset c cause => Sys2Proof.Machine.execCoreReset c cause s
  | .contextReset ctx cause => Sys2Proof.Machine.execContextReset ctx cause s
  | .engineReset b cause => Sys2Proof.Machine.execEngineReset b cause s
  | .drainLimitExpiry dom => Sys2Proof.Machine.execDrainLimitExpiry dom s
  | .resetExit dom flaws => Sys2Proof.Machine.execResetExit dom flaws s
  | .unitWatchdog b => Sys2Proof.Machine.execUnitWatchdog b s
  | .contextResetTimeout ctx => Sys2Proof.Machine.execContextResetTimeout ctx s
  | .engineResetTimeout b => Sys2Proof.Machine.execEngineResetTimeout b s
  | .fabricTimeout d => Sys2Proof.Machine.execFabricTimeout d s
  | .dieResetTimeout d => Sys2Proof.Machine.execDieResetTimeout d s
  | .heartbeat => Sys2Proof.Machine.execHeartbeat s
  | .mgmtWatchdogExpiry => Sys2Proof.Machine.execMgmtWatchdogExpiry s
  | .rstWdogKick org val => Sys2Proof.Machine.execRstWdogKick org val s
  | .rstCtxReset org val => Sys2Proof.Machine.execRstCtxReset org val s
  | .fwUpdate org val => Sys2Proof.Machine.execFwUpdate org val s
  | .firmwareChunkReceive c chunk data bad => Sys2Proof.Machine.execFirmwareChunkReceive c chunk data bad s
  | .sagWarn => Sys2Proof.Machine.execSagWarn s
  | .supplyReset => Sys2Proof.Machine.execSupplyReset s
  | .supplyResetRelease => Sys2Proof.Machine.execSupplyResetRelease s
  | .overVoltage => Sys2Proof.Machine.execOverVoltage s
  | .railWarn rail mv => Sys2Proof.Machine.execRailWarn rail mv s
  | .railReset rail => Sys2Proof.Machine.execRailReset rail s
  | .tapePeriod t => Sys2Proof.Machine.execTapePeriod t s
  | .tapeRecalibrate => Sys2Proof.Machine.execTapeRecalibrate s
  | .throttleAssert => Sys2Proof.Machine.execThrottleAssert s
  | .throttleDeassert => Sys2Proof.Machine.execThrottleDeassert s
  | .throttleStuck => Sys2Proof.Machine.execThrottleStuck s
  | .thermalSample hottest => Sys2Proof.Machine.execThermalSample hottest s
  | .ageSample w => Sys2Proof.Machine.execAgeSample w s
  | .ageHourlySummary => Sys2Proof.Machine.execAgeHourlySummary s
  | .status tag => Sys2Proof.Machine.execStatus tag s
  | .selfTest tag fails => Sys2Proof.Machine.execSelfTest tag fails s
  | .getCerts tag => Sys2Proof.Machine.execGetCerts tag s
  | .authChallenge tag => Sys2Proof.Machine.execAuthChallenge tag s
  | .authResponse tag role slot key sig => Sys2Proof.Machine.execAuthResponse tag role slot key sig s
  | .authLockoutEnd => Sys2Proof.Machine.execAuthLockoutEnd s
  | .logout tag role => Sys2Proof.Machine.execLogout tag role s
  | .attest tag nonce => Sys2Proof.Machine.execAttest tag nonce s
  | .random tag len predict => Sys2Proof.Machine.execRandom tag len predict s
  | .verify tag obj use => Sys2Proof.Machine.execVerify tag obj use s
  | .installOwner tag keyHash => Sys2Proof.Machine.execInstallOwner tag keyHash s
  | .setUserKey tag slot key => Sys2Proof.Machine.execSetUserKey tag slot key s
  | .advanceCounter tag obj ctr value => Sys2Proof.Machine.execAdvanceCounter tag obj ctr value s
  | .debugUnlock tag => Sys2Proof.Machine.execDebugUnlock tag s
  | .debugLock tag => Sys2Proof.Machine.execDebugLock tag s
  | .zeroise tag serial => Sys2Proof.Machine.execZeroise tag serial s
  | .logHostCopy => Sys2Proof.Machine.execLogHostCopy s
  | .logHackWrite org val => Sys2Proof.Machine.execLogHackWrite org val s
  | .logCtlHash org val => Sys2Proof.Machine.execLogCtlHash org val s
  | .logCtlSeal org val => Sys2Proof.Machine.execLogCtlSeal org val s
  | .sealComplete ok => Sys2Proof.Machine.execSealComplete ok s
  | .logFreadRead org => Sys2Proof.Machine.execLogFreadRead org s
  | .pfFlr => Sys2Proof.Machine.execPfFlr s
  | .vfFlr vf => Sys2Proof.Machine.execVfFlr vf s
  | .hostLinkDown => Sys2Proof.Machine.execHostLinkDown s
  | .hostTlpError e fn header => Sys2Proof.Machine.execHostTlpError e fn header s
  | .completionTimeout fn => Sys2Proof.Machine.execCompletionTimeout fn s
  | .refclkLoss => Sys2Proof.Machine.execRefclkLoss s
  | .refclkReturn => Sys2Proof.Machine.execRefclkReturn s
  | .tickSyncStuck level => Sys2Proof.Machine.execTickSyncStuck level s
  | .pinGlitch pin => Sys2Proof.Machine.execPinGlitch pin s
  | .i3cLineStuck pin => Sys2Proof.Machine.execI3cLineStuck pin s
  | .entdaa addr => Sys2Proof.Machine.execEntdaa addr s
  | .enec => Sys2Proof.Machine.execEnec s
  | .setDevnum n => Sys2Proof.Machine.execSetDevnum n s
  | .setCap watts => Sys2Proof.Machine.execSetCap watts s
  | .getStatus => Sys2Proof.Machine.execGetStatus s
  | .getPower => Sys2Proof.Machine.execGetPower s
  | .getThermal => Sys2Proof.Machine.execGetThermal s
  | .getAlert => Sys2Proof.Machine.execGetAlert s
  | .getId => Sys2Proof.Machine.execGetId s
  | .i3cBadCommand code => Sys2Proof.Machine.execI3cBadCommand code s
  | .bypass code => Sys2Proof.Machine.execBypass code s
  | .idcode => Sys2Proof.Machine.execIdcode s
  | .samplePreload => Sys2Proof.Machine.execSamplePreload s
  | .extest levels => Sys2Proof.Machine.execExtest levels s
  | .dbgreg addr write => Sys2Proof.Machine.execDbgreg addr write s
  | .registerRead org addr len flips => Sys2Proof.Machine.execRegisterRead org addr len flips s
  | .hostCompletion tag data => Sys2Proof.Machine.execHostCompletion tag data s
  | .sagWarnClear => Sys2Proof.Machine.execSagWarnClear s
  | .blockSend l => Sys2Proof.Machine.execBlockSend l s
  | .freeRunningAdvance c => Sys2Proof.Machine.execFreeRunningAdvance c s
  | .tapReset => Sys2Proof.Machine.execTapReset s

end Sys2Proof.Machine
end

