-- ==== Sys2Proof/Machine/Step.lean ====
section
/-! DEFINITION. One step: the command at the front of the queue takes effect; with none waiting, a mesh cycle passes. -/

namespace Sys2Proof.Machine

/-- What an empty queue lets happen: one mesh cycle passes (DESIGN CHOICE, log entry 2). -/
def State.idle (s : State) : State := { s with dev := meshCycle s.dev }

/-- One step. What takes time is a command of the queue (DESIGN CHOICE, log entry 7). -/
def step (s : State) : Host.Outcome State Fault Refusal :=
  match s.pending with
  | [] => .next s.idle
  | c :: rest => exec c { s with pending := rest }

/-- `s` with the command that the word spells in front of its queue; no word spells one. -/
def State.withFetchWord (s : State) (nbits w : Nat) : State :=
  match decodeTableWord nbits w with
  | some c => { s with pending := c :: s.pending }
  | none => s

end Sys2Proof.Machine
end

