-- ==== Sys2Proof/WellFormed.lean ====
section
/-! DEFINITION. Well-formed commands: operands that name something the device has (R3, R5, R7, R42, R61 to R63, R484) and values within
the widths that the spec gives them. The meanings are total and do not assume it. -/

namespace Sys2Proof

open Sys2Proof.Machine

/-- Class and ID of an origin (R484). -/
def Org.wf (o : Org) : Bool :=
  match o.cls with
  | 0 | 1 | 4 | 5 => decide (o.id = 0)
  | 2 => decide (1 ≤ o.id) && decide (o.id ≤ 64)
  | 3 => decide (o.id < 2 ^ 15)
  | 6 => decide (o.id < 128)
  | 7 => decide (o.id < 64)
  | 8 => decide (o.id < 2 ^ 16)
  | _ => false

def word32 (v : Nat) : Bool := decide (v < 2 ^ 32)
def ctxOk (x : Nat) : Bool := decide (x < 64)
def linkOk (l : Nat) : Bool := decide (l < 32)
def matrixOk (c : CoreRef) : Bool := coreOk c && isMatrix c
def vectorOk (c : CoreRef) : Bool := coreOk c && isVector c
def scalarOk (c : CoreRef) : Bool := coreOk c && decide (c.slot = 11)
/-- Streams of a core (R151): 8 of a scalar core, 4 of the others. -/
def streamOk (c : CoreRef) (st : Nat) : Bool := coreOk c && decide (st < if c.slot = 11 then 8 else 4)

def Dom.wf : Dom → Bool
  | .chip => true
  | .die d => decide (d < 4)
  | .cluster d c => decide (d < 4) && decide (c < 8)
  | .core c => coreOk c
  | .engine b => blkOk b
  | .context x => ctxOk x

/-- Bytes and header fields within their widths (R308). -/
def Packet.wf (p : Packet) : Bool :=
  decide (p.addr < 2 ^ 64) && decide (p.srcDev < 2 ^ 15) && decide (p.dstFlow < 16384) && decide (p.srcFlow < 16384) && decide (p.len < 4096) &&
    decide (p.data.length ≤ 4096) && decide (p.cls < 8)

def Arrival.wf (a : Arrival) : Bool := a.pkt.wf && (match a.link with | some l => linkOk l | none => true)

/-- At most 64 data units of one flit (R306). -/
def Block.wf (b : Block) : Bool := decide (b.units.length ≤ 64) && b.units.all fun u => decide (u.flit.length = 64)

/-- An object's key IDs, digest and signatures have their lengths (R477). -/
def SignedObj.wf (o : SignedObj) : Bool :=
  decide (o.digest.length = 64) && decide (o.vkeyid.length = 32) && decide (o.vsig.length = 114) && decide (o.ctr < 256)

/-- The command names what the device has. -/
def Instr.wf : Instr → Bool
  | .registerWrite org addr len val => org.wf && decide (addr < 2 ^ 28) && decide (0 < len) && decide (val < 2 ^ (8 * len))
  | .registerRead org addr len _ => org.wf && decide (addr < 2 ^ 28) && decide (0 < len)
  | .counterLoRead org addr => org.wf && decide (addr < 2 ^ 28)
  | .parityScan b _ | .eccWriteback b | .eccWindowEnd b | .engineReset b _ | .unitWatchdog b | .engineResetTimeout b => blkOk b
  | .resetReq org b view val => org.wf && blkOk b && decide (view < 4) && word32 val
  | .arrayCycle c _ failed => matrixOk c && failed.all fun f => decide (f.row < 136) && decide (f.col < 264)
  | .feederRead c f | .feederBankData c f => matrixOk c && decide (f < 2)
  | .transposeTileComplete c buf => matrixOk c && decide (buf < 2)
  | .swap c | .drainStart c | .drainComplete c | .loadStart c | .loadComplete c | .dumpComplete c | .productWord c | .standaloneDrain c
  | .standaloneLoad c | .mvTranspose c => matrixOk c
  | .arrRelease org c val | .arrDump org c val | .sctAdvance org c val => org.wf && matrixOk c && word32 val
  | .rngSeed org c val => org.wf && (matrixOk c || vectorOk c) && word32 val
  | .streamEnable org c st val | .streamResume org c st val | .streamBaseWrite org c st val => org.wf && streamOk c st && word32 val
  | .tailWrite c st | .wordFetch c st | .wordStart c st | .scoreboardFull c st | .syIncDone c st | .syIncRemoteDone c st
  | .flagWaitTimeout c st => streamOk c st
  | .scLd c st | .scSt c st => scalarOk c && streamOk c st
  | .vxAdd c | .vxSub c | .vxMul c | .vxFma c | .vxMax c | .vxMin c | .vxCvt c | .vxRsum c | .vxRmax c | .vxRng c | .vxExp c | .vxLog c
  | .vxRsqrt c | .vxTanh c => matrixOk c || vectorOk c
  | .dispatch c => vectorOk c || scalarOk c
  | .mvStream c | .tackPut c | .tackGet c | .slotComplete c _ | .flagNotice c | .freeRunningAdvance c | .coreReset c _ => coreOk c
  | .lmmScrub c _ _ => coreOk c
  | .firmwareChunkReceive c chunk data _ => coreOk c && decide (chunk < 128) && decide (data.length ≤ 4096)
  | .seamTimeout ctx | .deviceSeamArrival ctx | .refit ctx | .refitHoldExpiry ctx | .verdictContribute ctx | .verdictBroadcast ctx
  | .pressFence ctx | .captureForward ctx | .snapshotComplete ctx | .contextReset ctx _ | .contextResetTimeout ctx => ctxOk ctx
  | .parityGather ctx _ => ctxOk ctx
  | .digestCompare ctx d => ctxOk ctx && decide (d < 4)
  | .pressUseSend ctx e | .pressOwnerRound ctx e => ctxOk ctx && decide (e < 8192)
  | .migration ctx _ | .migrationAbort ctx _ => ctxOk ctx
  | .seamArrivalMessage link ctx _ => linkOk link && ctxOk ctx
  | .tickMessage link _ _ => linkOk link
  | .holdoverEntry cause => decide (cause < 3)
  | .armData org val | .armGo org val | .armCancel org val | .armDiscard org val | .missLevelled org val | .mrkFit org val
  | .mrkUnbind org val | .mrkRefitNow org val | .flowRelease org val | .pressEnable org val | .snpRestore org val | .snpResume org val
  | .snpSnap org val | .snpRelay org val | .snpRebuild org val | .rstWdogKick org val | .rstCtxReset org val | .fwUpdate org val
  | .logHackWrite org val | .logCtlHash org val | .logCtlSeal org val => org.wf && word32 val
  | .logFreadRead org => org.wf
  | .armedPairDelivery entry k => decide (entry < 16) && decide (k < 256)
  | .nscScrub d i _ _ => decide (d < 4) && decide (i < 4)
  | .fmcScrub d i _ _ => decide (d < 4) && decide (i < 6)
  | .eccInject org b val => org.wf && blkOk b && word32 val
  | .mapoutNext org d i j val => org.wf && decide (d < 4) && decide (i < 6) && decide (j < 4) && word32 val
  | .channelFail d i j => decide (d < 4) && decide (i < 6) && decide (j < 4)
  | .hostMemoryRead fn bar _ len _ => decide (fn ≤ 64) && decide (bar < 6) && decide (len ≤ 4096)
  | .hostMemoryWrite fn bar _ data _ => decide (fn ≤ 64) && decide (bar < 6) && decide (data.length ≤ 512)
  | .hostConfigRequest fn off write => decide (fn ≤ 64) && decide (off < 4096) && (match write with | some v => word32 v | none => true)
  | .streamTransferBegin d c i | .streamTransferComplete d c i => blkOk (.str d c i)
  | .routerRetire org d r val => org.wf && decide (d < 4) && decide (r < 48) && word32 val
  | .putReceive a | .addReceive a | .casReceive a | .flagAddReceive a | .putNotifyReceive a => a.wf
  | .getReceive a _ => a.wf
  | .ackReceive p | .dataReceive p | .casOldReceive p | .nackReceive p | .mcReserveReceive p | .mcGrantReceive p | .mcDataReceive p => p.wf
  | .linkBlockReceive l b _ _ => linkOk l && b.wf
  | .packetTransmit l | .txReservation l | .laneLockLoss l | .retrainTimeout l | .trainingTimeout l | .violationWindowEnd l
  | .blockSend l => linkOk l
  | .linkTrained l peerDev peerLink _ _ => linkOk l && decide (peerDev < 2 ^ 15) && linkOk peerLink
  | .lnkRetrain org l val => org.wf && linkOk l && word32 val
  | .flowNoprogress flow => decide (flow < 16384)
  | .mcReserveResend g | .mcDataInject g => decide (g < 1024)
  | .pressTrackerAdvance org d val => org.wf && decide (d < 4) && word32 val
  | .dieReset d _ | .fabricTimeout d | .dieResetTimeout d => decide (d < 4)
  | .clusterReset d c _ => decide (d < 4) && decide (c < 8)
  | .drainLimitExpiry dom | .resetExit dom _ => dom.wf
  | .bootStepTimeout step => decide (1 ≤ step) && decide (step ≤ 5)
  | .chipReset cause => decide (cause < 4)
  | .railWarn rail _ | .railReset rail => decide (rail < 50)
  | .tapePeriod t => decide (t.demand.length ≤ 32)
  | .ageSample w => decide (w.kind < 3)
  | .authResponse _ role slot _ _ => decide (role < 2) && decide (slot < 4)
  | .logout _ role => decide (role < 2)
  | .random _ len _ => decide (len ≤ 4096)
  | .verify _ obj _ => obj.wf
  | .advanceCounter _ obj ctr value => obj.wf && decide (ctr < 64) && decide (value ≤ 32)
  | .setUserKey _ slot key => decide (slot < 4) && (match key with | some k => decide (k.length = 57) | none => true)
  | .installOwner _ h => decide (h.length = 32)
  | .vfFlr vf => decide (1 ≤ vf) && decide (vf ≤ 64)
  | .hostTlpError _ fn _ | .completionTimeout fn => decide (fn ≤ 64)
  | .pinGlitch pin => decide (pin < 7)
  | .i3cLineStuck pin => pin == 4 || pin == 5
  | .entdaa addr => decide (addr < 128)
  | .setDevnum n => decide (n < 2 ^ 15)
  | .setCap watts => decide (watts < 2 ^ 16)
  | .i3cBadCommand code => decide (code < 256) && !(decide (1 ≤ code) && decide (code ≤ 7))
  | .bypass code => decide (code < 256) && !([1, 2, 3, 0x10].contains code)
  | .extest levels => decide (levels < 8)
  | .dbgreg addr write => decide (addr < 2 ^ 28) && (match write with | some v => decide (v < 2 ^ 64) | none => true)
  | .fitting pat => decide (pat.cores.length ≤ 384)
  | .coldStart f => word32 f.hostLink
  | .lcwAccessRelease | .stitch | .tickSyncEdge _ | .holdoverExpiry | .meshPacketForward _ _ | .injectionHoldRelease | .powerEnable | .powerDisable
  | .trayResetAssert | .trayResetRelease | .heartbeat | .mgmtWatchdogExpiry | .sagWarn | .supplyReset | .supplyResetRelease | .overVoltage
  | .tapeRecalibrate | .throttleAssert | .throttleDeassert | .throttleStuck | .thermalSample _ | .ageHourlySummary | .status _ | .selfTest _ _
  | .getCerts _ | .authChallenge _ | .authLockoutEnd | .attest _ _ | .debugUnlock _ | .debugLock _ | .zeroise _ _ | .logHostCopy
  | .sealComplete _ | .pfFlr | .hostLinkDown | .refclkLoss | .refclkReturn | .tickSyncStuck _ | .enec | .getStatus | .getPower | .getThermal
  | .getAlert | .getId | .idcode | .samplePreload | .tapReset | .hostCompletion _ _ | .sagWarnClear => true

end Sys2Proof
end

