-- ==== Sys2Proof/Safety.lean ====
section
/-! DEFINITION. The terms in which the statements speak of what a command leaves as it was, and the invariants of the machine. -/

namespace Sys2Proof.Machine

/-! ### Frames -/

/-- Every register but those at `ks` reads as before. -/
def regsKept (ks : List Nat) (d d' : Dev) : Prop := ∀ k, k ∉ ks → rdKey d' k = rdKey d k

/-- Every byte of memory but the `n` from `k` on reads as before. -/
def memKept (k n : Nat) (d d' : Dev) : Prop := ∀ a, ¬ (k ≤ a ∧ a < k + n) → memRd d' a = memRd d a

/-- Nothing differs but the registers at `ks`. -/
def onlyRegs (ks : List Nat) (d d' : Dev) : Prop := { d' with regs := d.regs } = d ∧ regsKept ks d d'

/-- Nothing differs but the registers at `ks` and what has been given to the outside. -/
def onlyRegsOut (ks : List Nat) (d d' : Dev) : Prop := { d' with regs := d.regs, out := d.out } = d ∧ regsKept ks d d'

/-- The Selvedge serves: the host port answers, and SEL is neither in its safe nor in its error state (R472 to R474, R497). -/
def selServes (d : Dev) : Prop := hostServed d = true ∧ isSafe .sel d = false ∧ d.sel.error = false

/-- The pins with both I3C lines released, as a transfer shows them. -/
def linesReleased (m : ModSt) : ModSt := { m with pins := putBits (putBits m.pins 5 1 1) 4 1 1 }

/-! ### Starts and resets (R423 to R446) -/

/-- What a chip reset leaves (R426, R435, R509): registers at their reset values but those of the module, memories and everything under way gone,
the flash, the pins and the user keys kept, the start to run again, and RST_BOOT.CAUSE. -/
def chipWasReset (cause : Nat) (d d' : Dev) : Prop :=
  d'.mem = [] ∧ d'.cores = [] ∧ d'.jobs = [] ∧ d'.runs = [] ∧ d'.resets = [] ∧ d'.net = {} ∧ d'.tck = {} ∧ d'.log = {} ∧ d'.press = [] ∧
  d'.snap = [] ∧ d'.safe = [] ∧ d'.flash = d.flash ∧ d'.out = d.out ∧ d'.sel.userKeys = d.sel.userKeys ∧ d'.sel.idKey = none ∧
  d'.mod_.glitches = d.mod_.glitches ∧ d'.mod_.start = (if d.mod_.start = 1 then 1 else 2) ∧
  (d.mod_.start ≠ 1 → rdF .rst RST_BOOT 8 3 d' = cause % 8 ∧ rdF .rst RST_BOOT 0 4 d' = 0) ∧
  (∀ k, moduleReg k = true → rdKey d' k = rdKey d k) ∧
  (∀ k, moduleReg k = false → k ≠ regKey .rst RST_BOOT → k ≠ regKey .pwr R_STATUS → rdKey d' k = (regReset k).toNat)

/-- A record of a reset (R446): kind, target, cause and VALID, nothing discarded and the drain limit not reached. -/
def recordIs (rb : Blk) (e kind target cause : Nat) (d : Dev) : Prop :=
  rdB rb RST_REC e d = kind + target % 65536 * 8 + cause % 16 * 2 ^ 19 + 2 ^ 31

/-- A reset has begun and waits (R433): its run stands alone, its record is written in the entry that was next, every port of its blocks is
fenced, and memory is as it was. -/
def resetBegun (m : Dom) (doms : List Dom) (rb : Blk) (kind target cause : Nat) (d d' : Dev) : Prop :=
  let e := rdF rb RST_REC_HEAD 0 4 d
  d'.runs = [{ dom := m, doms := doms, rst := rb, entry := e, done := false }] ∧ recordIs rb e kind target cause d' ∧
  (∀ x ∈ doms, ∀ b ∈ domBlks x, fenced b d' = true) ∧ d'.mem = d.mem ∧ d'.resets = d.resets

/-! ### Register accesses (R37 to R40, R56 to R65, R486 to R488) -/

/-- The registers that an entry of the change log moves (R488, R492). -/
def logKeys : List Nat := [regKey .log LOG_SEQ_LO, regKey .log (LOG_SEQ_LO + 4), regKey .log LOG_HWR_LO, regKey .log (LOG_HWR_LO + 4),
  regKey .log LOG_LOST, regKey .log R_EVENT]

/-- An access of an origin reaches the register at `o` of a block: the host port serves it, a VF's goes to a logical core bound in its own
context, no refit holds it, and the block is there and out of reset. -/
def reaches (org : Org) (b : Blk) (o : Nat) (d : Dev) : Prop :=
  (isHost org = true → hostUp d = true ∧ hostServed d = true) ∧ (org.cls = 2 → isSafe .pci d = false) ∧
  vfRefused org (addrFor org b o d) d = false ∧ lcwWaits org (addrFor org b o d) d = false ∧ addrFor org b o d % 4 = 0 ∧
  physOffset org (addrFor org b o d) d = some (regKey b o) ∧ presentBlk (regKey b o) d = some b ∧ inReset b d = false

/-- A write of `v` there is allowed and not frozen (R56 to R58). -/
def writable (org : Org) (b : Blk) (o v : Nat) (d : Dev) : Prop :=
  reaches org b o d ∧ ∃ sp, regSpec b o = some sp ∧ denied org b o 0 v sp d = false ∧ frozen b o false d = false

/-- The newest entry of the change log is that of a write (R487). -/
def loggedAs (org : Org) (a old new : Nat) (denied : Bool) (d : Dev) : Prop :=
  d.log.ring.head?.map (fun e => (e.cls, e.id, e.addr, e.old, e.new, e.denied)) = some (org.cls, org.id, a, old, new, denied)

/-- Nothing but registers at `ks`, the change log and the parity bits of what is written. -/
def onlyLogged (ks : List Nat) (d d' : Dev) : Prop := onlyRegs (ks ++ logKeys) { d with log := d'.log, parityBad := d'.parityBad } d'

/-! ### Cores and memories without errors -/

/-- Nothing differs but what one core holds beside its registers and local memory. -/
def onlyCore (c : CoreRef) (d d' : Dev) : Prop :=
  { d' with cores := d.cores } = d ∧ ∀ k, coreKey k ≠ coreKey c → getCore k d' = getCore k d

/-- Nothing differs but local memory (with poison and due write-backs of what is overwritten) and what one core holds beside its registers. -/
def onlyLocal (c : CoreRef) (d d' : Dev) : Prop :=
  { d' with mem := d.mem, poison := d.poison, wback := d.wback, cores := d.cores } = d ∧
  (∀ k, coreKey k ≠ coreKey c → getCore k d' = getCore k d) ∧ ∀ k, ¬ (keyLoc c 0 ≤ k ∧ k < keyLoc c (2 ^ 23)) → memRd d' k = memRd d k

/-- No stored granule holds an error, and none of these blocks has an injection armed (R222, R246). -/
def steady (bs : List Blk) (d : Dev) : Prop := d.flaws = [] ∧ ∀ b ∈ bs, rdBit b ECC_INJ 3 d = false

/-- Nothing stands in the way of plain reads and writes: no errors, no armed injection where a key lies, no failed channel. -/
def sound (d : Dev) : Prop := d.flaws = [] ∧ ∀ k, rdBit (keyBlk k d) ECC_INJ 3 d = false ∧ keyFailed k d = false

/-- Every byte of memory but those of one flag and the `n` from `k` on reads as before. -/
def memKeptFlag (k n ctx f : Nat) (d d' : Dev) : Prop :=
  ∀ a, ¬ (k ≤ a ∧ a < k + n) → ¬ (flagKey ctx f ≤ a ∧ a < flagKey ctx f + 8) → memRd d' a = memRd d a

/-! ### Requests -/

/-- A request may go out at once: injections are not held, and to another device its flow has room (R283, R316). -/
def canSend (flow : Option Nat) (a bytes : Nat) (d : Dev) : Prop :=
  d.net.holding = none ∧ (gDev a ≠ ownDev d → ∃ f, flow = some f ∧ (getFlow f d).held = [] ∧ canEmit f bytes d = true)

/-- A request has gone out: it is tracked for its issuer, and its packet stands in the mesh or asks a link for space (R298, R312). -/
def sentReq (i : Issuer) (op : Op) (a : Nat) (data : List Byte) (d d' : Dev) : Prop :=
  let it (p : Packet) : Prop := p.op = op ∧ p.addr = a ∧ p.data = data ∧ p.srcDev = ownDev d
  (∃ r, d'.net.reqs = d.net.reqs ++ [r] ∧ r.by_ = i ∧ r.op = op ∧ r.addr = a) ∧
  ((gDev a = ownDev d ∧ ∃ m, d'.net.mesh = d.net.mesh ++ [m] ∧ it m.a.pkt) ∨ (gDev a ≠ ownDev d ∧ ∃ r, d'.net.resv = d.net.resv ++ [r] ∧ it r.pkt))

/-! ### The fuses (R34, R476, R479, R482) -/

/-- The counters are 64 rows of thermometer code, each counting 0 to 32 (R479), and at most four owner slots are burned (R476). -/
def FuseSt.ok (f : FuseSt) : Bool := decide (f.counters.length = 64) && f.counters.all (fun c => decide (c ≤ 32)) && decide (f.owners.length ≤ 4)

/-- What a fuse row allows: nothing burned is ever taken back. -/
structure FuseSt.later (f g : FuseSt) : Prop where
  /-- grade, serial number, root keys, fused slots and certificates are what the factory burned -/
  factory : g = { f with owners := g.owners, counters := g.counters, secret := g.secret }
  /-- owner slots are burned in order, one after another -/
  owners : f.owners <+: g.owners
  /-- no anti-rollback counter falls -/
  counters : ∀ i : Nat, f.counters.getD i 0 ≤ g.counters.getD i 0
  /-- the device secret stays, or is burned away -/
  secret : g.secret = f.secret ∨ g.secret = List.replicate 57 255

end Sys2Proof.Machine
end

