-- ==== Sys2Proof/Certificates/Slice0/Obligations.lean ====
section
/-! DEFINITION. The statements about the model. Each says of the commands it names that they answer a next state, what that state holds, and
what stays as it was. -/

open Sys2Proof Sys2Proof.Machine

/-! ### The Selvedge (R472 to R483) -/

/-- STATUS, GET_CERTS and VERIFY answer their request and change nothing but SEL_IND and, for an object refused, the record of AUTH_FAIL.
AUTH_CHALLENGE, ATTEST and RANDOM in approved mode (R472, R473, R480, R481). -/
def Obligations.SelvedgeServices : Prop :=
  (∀ (s : State) (tag : Nat), selServes s.dev →
    (∃ d data, exec (.status tag) s = .next { s with dev := d } ∧ d.out = .doe tag 0 data :: s.dev.out ∧ data.length = 72 ∧
      (∀ i, i < 64 → data[4 + i]? = some (BitVec.ofNat 8 (rdB .sel SEL_CTR i s.dev))) ∧ onlyRegsOut [regKey .sel SEL_IND] s.dev d) ∧
    (∃ d, exec (.getCerts tag) s = .next { s with dev := d } ∧ d.out = .doe tag 0 s.fuses.certs :: s.dev.out ∧
      onlyRegsOut [regKey .sel SEL_IND] s.dev d) ∧
    (s.dev.sel.user = true → ∀ obj use, ∃ d, exec (.verify tag obj use) s = .next { s with dev := d } ∧
      d.out = .doe tag (if objCheck use obj s.dev = 0 then 0 else 4) (toBytes 1 (objCheck use obj s.dev)) :: s.dev.out ∧
      (objCheck use obj s.dev = 0 → onlyRegsOut [regKey .sel SEL_IND] s.dev d) ∧
      (objCheck use obj s.dev ≠ 0 → faultValid .sel d = true ∧
        onlyRegsOut [regKey .sel SEL_IND, regKey .sel R_FAULT, regKey .sel SEL_AUTH] s.dev d))) ∧
  (∀ (s : State) (tag : Nat), selServes s.dev → approved s.dev = true →
    (∃ d ch, exec (.authChallenge tag) s = .next { s with dev := d } ∧ ch.length = 32 ∧ d.out = .doe tag 0 ch :: s.dev.out ∧
      d.sel.challenge = some ch ∧ onlyRegsOut [regKey .sel SEL_IND, regKey .sel SEL_RESEED] { s.dev with sel := d.sel } d) ∧
    (s.dev.sel.user = true → ∀ nonce, nonce.length = 32 → ∃ d rep, exec (.attest tag nonce) s = .next { s with dev := d } ∧
      d.out = .doe tag 0 rep :: s.dev.out ∧ (rep.drop 32).take 32 = nonce ∧ onlyRegsOut [regKey .sel SEL_IND] s.dev d) ∧
    (s.dev.sel.user = true → ∀ len predict, 1 ≤ len → len ≤ 1024 → ∃ d bs, exec (.random tag len predict) s = .next { s with dev := d } ∧
      bs.length = len ∧ d.out = .doe tag 0 bs :: s.dev.out ∧
      (predict = true → rd .sel SEL_RESEED d = 1) ∧
      onlyRegsOut [regKey .sel SEL_IND, regKey .sel SEL_RESEED] { s.dev with sel := d.sel } d))

/-- What proves a role (R473): the standing challenge signed with the role's key. -/
def Obligations.SelvedgeSessions : Prop :=
  ∀ (s : State) (tag : Nat), selServes s.dev →
    (∀ role slot key sig, role ≤ 1 → slot ≤ 3 → s.dev.sel.lockout = false → ∃ d,
      exec (.authResponse tag role slot key sig) s = .next { s with dev := d } ∧ d.sel.challenge = none ∧
      ((∃ ch, s.dev.sel.challenge = some ch ∧ roleKey role slot key s.dev = true ∧ Config.ed448Verify key (roleMessage ch role s.dev) sig = true) →
        d.out = .doe tag 0 (toBytes 4 role) :: s.dev.out ∧ d.sel.fails = 0 ∧ d.sel.co = (s.dev.sel.co || role == 0) ∧
        d.sel.user = (s.dev.sel.user || role == 1) ∧ rdBit .sel R_EVENT 9 d = true ∧
        onlyRegsOut [regKey .sel SEL_IND, regKey .sel R_EVENT] { s.dev with sel := d.sel } d) ∧
      (¬ (∃ ch, s.dev.sel.challenge = some ch ∧ roleKey role slot key s.dev = true ∧ Config.ed448Verify key (roleMessage ch role s.dev) sig = true) →
        d.out = .doe tag 4 [] :: s.dev.out ∧ d.sel.fails = s.dev.sel.fails + 1 ∧ d.sel.lockout = decide (8 ≤ s.dev.sel.fails + 1) ∧
        d.sel.co = s.dev.sel.co ∧ d.sel.user = s.dev.sel.user ∧ faultValid .sel d = true ∧
        onlyRegsOut [regKey .sel SEL_IND, regKey .sel R_FAULT, regKey .sel SEL_AUTH] { s.dev with sel := d.sel } d)) ∧
    (s.dev.sel.co = true → ∃ d, exec (.logout tag 0) s = .next { s with dev := d } ∧ d.sel = { s.dev.sel with co := false } ∧
      d.out = .doe tag 0 (toBytes 4 0) :: s.dev.out ∧ rdBit .sel R_EVENT 9 d = true ∧
      onlyRegsOut [regKey .sel SEL_IND, regKey .sel R_EVENT] { s.dev with sel := d.sel } d) ∧
    (s.dev.sel.user = true → ∃ d, exec (.logout tag 1) s = .next { s with dev := d } ∧ d.sel = { s.dev.sel with user := false } ∧
      d.out = .doe tag 0 (toBytes 4 1) :: s.dev.out ∧ rdBit .sel R_EVENT 9 d = true ∧
      onlyRegsOut [regKey .sel SEL_IND, regKey .sel R_EVENT] { s.dev with sel := d.sel } d)

/-- The Crypto Officer's services on the device: user keys, the debug port, the self-tests, and the end of a lockout. -/
def Obligations.SelvedgeOfficer : Prop :=
  ∀ (s : State) (tag : Nat),
    (s.dev.sel.lockout = true → exec .authLockoutEnd s =
      .next { s with dev := { s.dev with sel := { s.dev.sel with lockout := false, fails := 0 } } }) ∧
    (selServes s.dev → ∀ fails, ∃ d, exec (.selfTest tag fails) s = .next { s with dev := d } ∧
      d.out = .doe tag 0 (toBytes 4 (fails % 128)) :: s.dev.out ∧ d.sel.tested = true ∧ d.sel.error = decide (fails % 128 ≠ 0) ∧
      (fails % 128 ≠ 0 → rd .sel SEL_KAT d = fails % 128 ∧ rdBit .sel R_EVENT 8 d = true) ∧
      onlyRegsOut [regKey .sel SEL_IND, regKey .sel SEL_KAT, regKey .sel R_EVENT] { s.dev with sel := d.sel } d) ∧
    (selServes s.dev → s.dev.sel.co = true → s.dev.sel.userKeys.length = 4 → ∀ slot key, slot ≤ 3 → ∃ d,
      exec (.setUserKey tag slot key) s = .next { s with dev := d } ∧ d.out = .doe tag 0 [] :: s.dev.out ∧
      d.sel.userKeys[slot]? = some key ∧ (∀ j : Nat, j ≠ slot → d.sel.userKeys[j]? = s.dev.sel.userKeys[j]?) ∧
      d.sel = { s.dev.sel with userKeys := d.sel.userKeys } ∧ onlyRegsOut [regKey .sel SEL_IND] { s.dev with sel := d.sel } d) ∧
    (selServes s.dev → s.dev.sel.co = true → ∃ d, exec (.debugUnlock tag) s = .next { s with dev := d } ∧
      d.out = .doe tag 0 [] :: s.dev.out ∧ d.sel = { s.dev.sel with debugNext := some true } ∧
      onlyRegsOut [regKey .sel SEL_IND] { s.dev with sel := d.sel } d) ∧
    (selServes s.dev → s.dev.sel.co = true → ∃ d, exec (.debugLock tag) s = .next { s with dev := d } ∧
      d.out = .doe tag 0 [] :: s.dev.out ∧ d.sel = { s.dev.sel with debugNext := some false } ∧
      onlyRegsOut [regKey .sel SEL_IND] { s.dev with sel := d.sel } d)

/-- INSTALL_OWNER, ADVANCE_COUNTER and ZEROISE burn what they name, and answer (R476, R479, R482). -/
def Obligations.SelvedgeBurns : Prop :=
  ∀ (s : State) (tag : Nat), selServes s.dev →
    (∀ h, (s.dev.sel.owner = none ∨ s.dev.sel.co = true) → h.length = 32 → s.fuses.owners.length < 4 → ∃ d,
      exec (.installOwner tag h) s = .next { s with dev := d, fuses := { s.fuses with owners := s.fuses.owners ++ [h] } } ∧
      d.sel = { s.dev.sel with owner := some h } ∧ rd .sel SEL_OWNER d = s.fuses.owners.length + 1 ∧
      d.out = .doe tag 0 [] :: s.dev.out ∧ onlyRegsOut [regKey .sel SEL_IND, regKey .sel SEL_OWNER] { s.dev with sel := d.sel } d) ∧
    (s.dev.sel.co = true → s.fuses.ok = true → ∀ obj ctr value, ctr ≤ 63 → counterCheck obj ctr value s.dev = 0 → ∃ d f,
      exec (.advanceCounter tag obj ctr value) s = .next { s with dev := d, fuses := f } ∧ rdB .sel SEL_CTR ctr d = value ∧
      f.counters[ctr]? = some (max value (s.fuses.counters.getD ctr 0)) ∧
      (∀ j : Nat, j ≠ ctr → f.counters[j]? = s.fuses.counters[j]?) ∧ { f with counters := s.fuses.counters } = s.fuses ∧
      d.sel = { s.dev.sel with advanced := s.dev.sel.advanced || ctr == 0 } ∧
      d.out = .doe tag 0 [] :: s.dev.out ∧ onlyRegsOut [regKey .sel SEL_IND, bankKey .sel SEL_CTR ctr] { s.dev with sel := d.sel } d) ∧
    (s.dev.sel.co = true → s.dev.sel.advanced = true → ∀ obj value, counterCheck obj 0 value s.dev ≠ 0 ∧ ∃ d, exec (.advanceCounter tag obj 0 value) s = .next { s with dev := d } ∧
      d.out = .doe tag 4 [] :: s.dev.out ∧ rdB .sel SEL_CTR 0 d = rdB .sel SEL_CTR 0 s.dev) ∧
    (s.dev.sel.co = true → ∃ d, exec (.zeroise tag (rd64 .sel SEL_SERIAL_LO s.dev)) s =
        .next { s with dev := d, fuses := { s.fuses with secret := List.replicate 57 255 } } ∧
      d.out = .doe tag 0 [] :: s.dev.out ∧
      d.sel = { s.dev.sel with idKey := none, challenge := none, co := false, user := false, drbg := 0, zeroised := true } ∧
      onlyRegsOut [regKey .sel SEL_IND] { s.dev with sel := d.sel } d)

/-- Every step, of every command and of the idle device, leaves the fuses as they were or later: counters never fall, owner slots are only
added, the secret is only burned, and the rest is the factory's (R34, R476, R479, R482). -/
def Obligations.FusesOnlyBurn : Prop :=
  ∀ s t : State, step s = .next t → FuseSt.later s.fuses t.fuses

/-- The fuses keep the form that R476 and R479 give them: 64 counters of at most 32, at most four owners. -/
def Obligations.FusesStayWellFormed : Prop :=
  ∀ s t : State, s.fuses.ok = true → step s = .next t → t.fuses.ok = true

/-- The fuses at reset have that form. -/
def Obligations.FusesAtReset : Prop := State.reset.fuses.ok = true

/-- Only INSTALL_OWNER, ADVANCE_COUNTER and ZEROISE change a fuse, each only its own, and the first two only for the Crypto Officer or on a
device without owner. -/
def Obligations.FusesOnlyByService : Prop :=
  ∀ (c : Instr) (s t : State), exec c s = .next t → t.fuses ≠ s.fuses →
    hostServed s.dev = true ∧ s.dev.sel.error = false ∧
    ((∃ tag h, c = .installOwner tag h ∧ t.fuses = { s.fuses with owners := s.fuses.owners ++ [h] } ∧
        (s.dev.sel.co = true ∨ s.dev.sel.owner = none)) ∨
     (∃ tag obj ctr value, c = .advanceCounter tag obj ctr value ∧ t.fuses = { s.fuses with counters := t.fuses.counters } ∧ s.dev.sel.co = true) ∨
     (∃ tag serial, c = .zeroise tag serial ∧ t.fuses = { s.fuses with secret := t.fuses.secret } ∧ s.dev.sel.co = true))

/-! ### The sidebands: I3C, JTAG, pins (R510 to R518) -/

/-- ENTDAA, ENEC, SET_DEVNUM and an unknown code change PCI_I3C as R513 and R514 say, and nothing else but that the lines show released. The reads of
R513: their bytes, all zero while the chip is in reset but for GET_ID, and nothing of the device changed. -/
def Obligations.I3cTransfers : Prop :=
  (∀ s : State, s.dev.mod_.rails = true →
    (∀ a, ∃ d pid, exec (.entdaa a) s = .next { s with dev := d } ∧ rd .pci PCI_I3C d = putBits (rd .pci PCI_I3C s.dev) 0 7 a ∧
      d.out = .i3cDaa pid true 0 :: s.dev.out ∧ pid % 2 ^ 32 = s.fuses.serial % 2 ^ 32 ∧
      onlyRegsOut [regKey .pci PCI_I3C] { s.dev with mod_ := linesReleased s.dev.mod_, free := s.dev.free + 1 } d) ∧
    (∃ d, exec .enec s = .next { s with dev := d } ∧ rd .pci PCI_I3C d = putBits (rd .pci PCI_I3C s.dev) 7 1 1 ∧
      onlyRegs [regKey .pci PCI_I3C] { s.dev with mod_ := linesReleased s.dev.mod_ } d) ∧
    (∀ n, ∃ d, exec (.setDevnum n) s = .next { s with dev := d } ∧
      rd .pci PCI_I3C d = putBits (putBits (rd .pci PCI_I3C s.dev) 23 1 1) 8 15 n ∧
      onlyRegs [regKey .pci PCI_I3C] { s.dev with mod_ := linesReleased s.dev.mod_ } d) ∧
    (∀ code, ¬ (1 ≤ code ∧ code ≤ 7) → ∃ d, exec (.i3cBadCommand code) s = .next { s with dev := d } ∧ d.out = .i3cNack :: s.dev.out ∧
      rdF .pci PCI_I3C 24 8 d = min 255 (rdF .pci PCI_I3C 24 8 s.dev + 1) ∧ bits (rd .pci PCI_I3C d) 0 24 = bits (rd .pci PCI_I3C s.dev) 0 24 ∧
      onlyRegsOut [regKey .pci PCI_I3C] { s.dev with mod_ := linesReleased s.dev.mod_ } d)) ∧
  (∀ s : State, s.dev.mod_.rails = true →
    let u : Dev := { s.dev with mod_ := linesReleased s.dev.mod_ }
    let tells (i : Instr) (bs : List Byte) : Prop := exec i s = .next { s with dev := { u with out := .i3c bs :: s.dev.out } }
    (chipHeld s.dev = true → tells .getStatus (List.replicate 8 0) ∧ tells .getPower (List.replicate 12 0) ∧
      tells .getThermal (List.replicate 4 0) ∧ tells .getAlert (List.replicate 8 0)) ∧
    (chipHeld s.dev = false →
      tells .getStatus (toBytes 4 (regVal .rst RST_BOOT u) ++ toBytes 2 (regVal .pwr PWR_BUDGET u) ++ toBytes 2 (regVal .pwr PWR_IN u)) ∧
      tells .getPower (toBytes 4 (regVal .pwr PWR_IN u) ++ toBytes 4 (regVal .pwr PWR_ENERGY_LO u) ++
        toBytes 4 (regVal .pwr (PWR_ENERGY_LO + 4) u)) ∧
      tells .getThermal (toBytes 4 (regVal .pwr PWR_THERM u)) ∧
      tells .getAlert (toBytes 4 (glbEvent u) ++ toBytes 4 (regVal .age R_EVENT u))) ∧
    tells .getId (toBytes 8 s.fuses.serial ++ toBytes 4 (gradeWord s.fuses) ++ toBytes 4 s.dev.sel.mgmtVer))

/-- SET_CAP is a write of class 6 to PWR_CAP_TRAY: clamped to 1,200 W and the rating, or refused under WPERM, and logged either way (R58, R452,
R486, R513). -/
def Obligations.TrayCap : Prop :=
  ∀ (s : State) (w : Nat), s.dev.mod_.rails = true → chipHeld s.dev = false → s.dev.mod_.start = 0 → inReset .pwr s.dev = false → w < 2 ^ 16 →
    let old := rd .pwr PWR_CAP_TRAY s.dev
    let ks := [regKey .pwr PWR_CAP_TRAY, regKey .pwr R_FAULT, regKey .log LOG_SEQ_LO, regKey .log (LOG_SEQ_LO + 4), regKey .log LOG_HWR_LO,
      regKey .log (LOG_HWR_LO + 4), regKey .log LOG_LOST, regKey .log R_EVENT]
    ∃ d, exec (.setCap w) s = .next { s with dev := d } ∧
      d.log.ring.head?.map (fun e => (e.cls, e.id, e.addr, e.alias_)) =
        some (6, bits (rd .pci PCI_I3C s.dev) 0 7, blkBase .pwr + PWR_CAP_TRAY, false) ∧
      (allows .pwr 6 s.dev = true →
        rd .pwr PWR_CAP_TRAY d = (if w < 1200 then 1200 else min w (rdF .pwr PWR_RATING 0 16 s.dev)) ∧
        d.log.ring.head?.map (fun e => (e.old, e.new, e.denied)) = some (old, rd .pwr PWR_CAP_TRAY d, false)) ∧
      (allows .pwr 6 s.dev = false → rd .pwr PWR_CAP_TRAY d = old ∧ faultValid .pwr d = true ∧
        d.log.ring.head?.map (fun e => (e.new, e.denied)) = some (w, true)) ∧
      onlyRegs ks { s.dev with mod_ := linesReleased s.dev.mod_, log := d.log } d

/-- The instructions of the TAP but DBGREG (R518). DBGREG acts with class 4 only while the debug port is unlocked (R483, R518). -/
def Obligations.TestPort : Prop :=
  (∀ s : State, s.dev.mod_.rails = true →
    let at_ (code : Nat) (o : List Out) : Host.Outcome State Fault Refusal := .next { s with dev := { s.dev with mod_ := { s.dev.mod_ with tap := code }, out := o ++ s.dev.out } }
    exec .tapReset s = at_ 1 [] ∧
    exec .idcode s = at_ 1 [.tdo 32 (if s.fuses.grade % 4 = 1 then 0x19A0AA7B else 0x19A09A7B)] ∧
    (∀ code, code < 256 → code ∉ [1, 2, 3, 0x10] → exec (.bypass code) s = at_ code [.tdo 1 0]) ∧
    exec .samplePreload s = at_ 2 [.tdo 7 (bits s.dev.mod_.pins 0 7)] ∧
    (∀ levels, s.dev.mod_.trayHeld = false → s.dev.mod_.supplyHeld = false → exec (.extest levels) s = at_ 3 [.tdo 1 0]) ∧
    (∀ levels, (s.dev.mod_.trayHeld = true ∨ s.dev.mod_.supplyHeld = true) → exec (.extest levels) s =
      at_ 3 [.tdo 7 (bits s.dev.mod_.pins 0 7), .pin 2 (levels.testBit 2), .pin 1 (levels.testBit 1), .pin 0 (levels.testBit 0)])) ∧
  (∀ (s : State) (a : Nat), s.dev.mod_.rails = true →
    let u : State := { s with dev := { s.dev with mod_ := { s.dev.mod_ with tap := 0x10 } } }
    (s.dev.sel.debug = false →
      exec (.dbgreg a none) s = .next { u with dev := { u.dev with out := .tdo 64 0 :: s.dev.out } } ∧
      (∀ v, exec (.dbgreg a (some v)) s = .next u)) ∧
    (s.dev.sel.debug = true → chipHeld s.dev = false → a % 8 = 0 →
      (∀ v, exec (.dbgreg a (some v)) s = exec (.registerWrite ⟨4, 0⟩ a 8 v) u) ∧
      (lcwWaits ⟨4, 0⟩ a u.dev = false → ∃ (d : Dev) (v : Nat), exec (.dbgreg a none) s = .next { s with dev := { d with out := .tdo 64 v :: d.out } } ∧
        exec (.registerRead ⟨4, 0⟩ a 8 []) u = .next { s with dev := { d with out := .regData v :: d.out } })))

/-- Rejected pulses are counted at their input (R517); a stuck input latches PIN_STUCK in PCI and names the first pin stuck (R109, R510); REFCLK lost
takes the host link down and puts the root in holdover, and the link trains when it returns (R515). -/
def Obligations.PinEvents : Prop :=
  ∀ s : State, s.dev.mod_.rails = true → chipHeld s.dev = false →
    (∀ pin, pin < 7 → ∃ d, exec (.pinGlitch pin) s = .next { s with dev := d } ∧
      rdB .pci PCI_GLITCH pin d = (rdB .pci PCI_GLITCH pin s.dev + 1) % 2 ^ 32 ∧
      onlyRegs [bankKey .pci PCI_GLITCH pin] { s.dev with mod_ := { s.dev.mod_ with glitches := d.mod_.glitches } } d) ∧
    (∀ pin, pin = 4 ∨ pin = 5 → ∃ d, exec (.i3cLineStuck pin) s = .next { s with dev := d } ∧ faultValid .pci d = true ∧
      (faultValid .pci s.dev = false → rd .pci PCI_STUCK d = pin ∧ rdF .pci R_FAULT 0 16 d = cPinStuck) ∧
      (faultValid .pci s.dev = true → rd .pci PCI_STUCK d = rd .pci PCI_STUCK s.dev) ∧
      onlyRegs [regKey .pci R_FAULT, regKey .pci PCI_STUCK]
        { s.dev with mod_ := { s.dev.mod_ with pins := putBits s.dev.mod_.pins pin 1 0 } } d) ∧
    (∀ level, rdBit .tck TCK_CFG 1 s.dev = true → ∃ d, exec (.tickSyncStuck level) s = .next { s with dev := d } ∧ faultValid .pci d = true ∧
      (faultValid .pci s.dev = false → rd .pci PCI_STUCK d = 3) ∧ (rdBit .tck TCK_CFG 0 s.dev = true → d.tck.holdover = true)) ∧
    (s.dev.mod_.refLost = false → ∃ d, exec .refclkLoss s = .next { s with dev := d } ∧ d.mod_.refLost = true ∧ faultValid .pci d = true ∧
      (hostUp s.dev = true → rd .pci PCI_LINK d = 0)) ∧
    (s.dev.mod_.refLost = true → s.dev.mod_.start = 0 → (hostServed s.dev = true ∨ rdF .rst RST_BOOT 0 4 s.dev ≠ 8) → ∃ d,
      exec .refclkReturn s = .next { s with dev := d } ∧ d.mod_ = { s.dev.mod_ with refLost := false } ∧ 1 ≤ rdF .pci PCI_LINK 0 3 d ∧
      rdF .pci PCI_LINK 0 3 d ≤ 6 ∧ rdF .pci PCI_LINK 4 5 d ∈ [1, 2, 4, 8, 16] ∧
      onlyRegs [regKey .pci PCI_LINK] { s.dev with mod_ := d.mod_, free := d.free } d)

/-! ### Supply, starts and resets of the whole chip (R423 to R426, R435, R440, R449 to R459, R499, R509 to R511) -/

/-- Power comes and goes (R29, R449, R459, R499, R510, R511): with the rails off nothing on the module keeps its state but the flash, the fuses and
the levels of the pins; a trip holds the rails off until PWR_EN is cycled. A start that nothing holds ends READY or FAILED, whatever it finds
(R423, R424, R431); a step that takes too long fails it, with every block locked where the host port will accept requests (R57). -/
def Obligations.PowerAndStart : Prop :=
  (∀ s : State,
    let pins := s.dev.mod_.pins
    let off (trip : Bool) (p : Nat) : Host.Outcome State Fault Refusal := .next { s with dev :=
      { flash := s.dev.flash, out := .pin 0 false :: s.dev.out, free := s.dev.free,
        mod_ := { rails := false, tripped := trip, trayHeld := s.dev.mod_.trayHeld, start := 0, pins := p } } }
    (s.dev.mod_.rails = false → s.dev.mod_.tripped = false → exec .powerEnable s = .next { s with dev :=
      { flash := s.dev.flash, out := .pin 0 true :: s.dev.out, free := s.dev.free, tape := { throttle := !pins.testBit 1 },
        mod_ := { rails := true, trayHeld := !pins.testBit 2, start := 1, pins := putBits pins 0 1 1 } } }) ∧
    (s.dev.mod_.rails = true → exec .powerDisable s = off false (putBits pins 0 1 0)) ∧
    (s.dev.mod_.rails = true → exec .overVoltage s = off true pins) ∧
    (s.dev.mod_.rails = true → ∀ hot, 115 ≤ hot → exec (.thermalSample hot) s = off true pins) ∧
    (s.dev.mod_.rails = false → exec .powerDisable s = .next { s with dev :=
      { s.dev with mod_ := { s.dev.mod_ with pins := putBits pins 0 1 0, tripped := false } } })) ∧
  (∀ s : State, s.dev.mod_.start ≠ 0 → chipHeld s.dev = false →
    (∀ f, ∃ d, exec (.coldStart f) s = .next { s with dev := d } ∧ (rdF .rst RST_BOOT 0 4 d = 7 ∨ rdF .rst RST_BOOT 0 4 d = 8) ∧
      (f.mgmt = [] → rdF .rst RST_BOOT 0 4 d = 8 ∧ rdF .rst RST_BOOT 16 4 d = 1)) ∧
    (∀ step, 1 ≤ step → step ≤ 3 → ∃ d, exec (.bootStepTimeout step) s = .next { s with dev := d } ∧ rdF .rst RST_BOOT 0 4 d = 8 ∧
      rdF .rst RST_BOOT 16 4 d = step ∧ d.mod_ = { s.dev.mod_ with start := 0 } ∧ d.mem = s.dev.mem ∧ d.net = s.dev.net ∧
      (step ≤ 2 → onlyRegs [regKey .rst RST_BOOT] { s.dev with mod_ := d.mod_, flash := d.flash } d) ∧
      (step = 3 → d.wperm = allBlks.map fun b => (blkBase b, lockVal b s.dev))))

/-- Every start of a chip reset resets the whole chip, with its cause; TRAY_RST_n and the supply hold the chip until they release it. -/
def Obligations.ChipResets : Prop :=
  ∀ s : State, s.dev.mod_.rails = true →
    (∀ cause, ∃ d, exec (.chipReset cause) s = .next { s with dev := d } ∧ chipWasReset cause s.dev d ∧
      d.mod_.trayHeld = s.dev.mod_.trayHeld ∧ d.mod_.pins = s.dev.mod_.pins) ∧
    (∃ d, exec .trayResetAssert s = .next { s with dev := d } ∧ chipWasReset 1 s.dev d ∧ d.mod_.trayHeld = true ∧
      d.mod_.pins = putBits s.dev.mod_.pins 2 1 0) ∧
    (∃ d, exec .supplyReset s = .next { s with dev := d } ∧ chipWasReset 3 s.dev d ∧ d.mod_.supplyHeld = true) ∧
    (s.dev.mod_.start = 0 → chipHeld s.dev = false → ∃ d, exec .mgmtWatchdogExpiry s = .next { s with dev := d } ∧ chipWasReset 2 s.dev d) ∧
    (∀ rail, rail = 48 ∨ rail = 49 → ∃ d, exec (.railReset rail) s = .next { s with dev := d } ∧ chipWasReset 3 s.dev d) ∧
    exec .trayResetRelease s = .next { s with dev :=
      { s.dev with mod_ := { s.dev.mod_ with pins := putBits s.dev.mod_.pins 2 1 1, trayHeld := false } } } ∧
    exec .supplyResetRelease s = .next { s with dev := { s.dev with mod_ := { s.dev.mod_ with supplyHeld := false } } }

/-- The heartbeat counts, and goes out as an in-band interrupt where they are enabled (R440, R514). -/
def Obligations.Heartbeat : Prop :=
  ∀ s : State, chipHeld s.dev = false → s.dev.mod_.start = 0 → ∃ d, exec .heartbeat s = .next { s with dev := d } ∧
    rdF .rst RST_HB 0 16 d = (rdF .rst RST_HB 0 16 s.dev + 1) % 2 ^ 16 ∧ rdF .rst RST_HB 16 16 d = rdF .rst RST_HB 16 16 s.dev ∧
    onlyRegsOut [regKey .rst RST_HB] s.dev d ∧ (rdBit .pci PCI_I3C 7 s.dev = false → d.out = s.dev.out) ∧
    (rdBit .pci PCI_I3C 7 s.dev = true → ∃ b, d.out = .ibi [0xB7, BitVec.ofNat 8 (rdF .rst RST_HB 0 16 d),
      BitVec.ofNat 8 (rdF .rst RST_HB 0 16 d / 256), BitVec.ofNat 8 (rdF .rst RST_BOOT 0 4 s.dev + 16 * rdF .rst RST_BOOT 16 4 s.dev), b] :: s.dev.out)

/-- Throttle, sag and rail warnings (R449 to R451, R457). The Tape's periods, its recalibration, and temperature below the trip (R452, R453, R459). -/
def Obligations.PowerAndTemperature : Prop :=
  (∀ s : State,
    (chipHeld s.dev = false → s.dev.tape.throttle = false → ∃ d, exec .throttleAssert s = .next { s with dev := d } ∧
      d.tape = { s.dev.tape with throttle := true } ∧ rd .pwr PWR_THROTTLE d = (rd .pwr PWR_THROTTLE s.dev + 1) % 2 ^ 32 ∧
      rdBit .pwr R_STATUS 9 d = true ∧ onlyRegs [regKey .pwr PWR_THROTTLE, regKey .pwr R_STATUS]
        { s.dev with tape := d.tape, mod_ := { s.dev.mod_ with pins := putBits s.dev.mod_.pins 1 1 0 } } d) ∧
    (chipHeld s.dev = false → ∃ d, exec .throttleDeassert s = .next { s with dev := d } ∧ d.tape = { s.dev.tape with throttle := false } ∧
      rdBit .pwr R_STATUS 9 d = false ∧ onlyRegs [regKey .pwr R_STATUS]
        { s.dev with tape := d.tape, mod_ := { s.dev.mod_ with pins := putBits s.dev.mod_.pins 1 1 1 } } d) ∧
    (s.dev.tape.throttle = true → ∃ d, exec .throttleStuck s = .next { s with dev := d } ∧ faultValid .pwr d = true ∧
      (faultValid .pwr s.dev = false → rdF .pwr R_FAULT 0 16 d = cPinStuck) ∧ onlyRegs [regKey .pwr R_FAULT] s.dev d) ∧
    (s.dev.tape.sag = false → ∃ d, exec .sagWarn s = .next { s with dev := d } ∧ d.tape = { s.dev.tape with sag := true } ∧
      rdBit .pwr R_STATUS 10 d = true ∧ faultValid .pwr d = true ∧
      (sealedLately s.dev = false → s.dev.sealing = none → logSeq s.dev ≠ 0 → d.sealing.isSome = true)) ∧
    (∃ d, exec .sagWarnClear s = .next { s with dev := d } ∧ rdBit .pwr R_STATUS 10 d = false ∧
      onlyRegs [regKey .pwr R_STATUS] { s.dev with tape := { s.dev.tape with sag := false } } d) ∧
    (∀ rail mv, rail < 50 → ∃ d, exec (.railWarn rail mv) s = .next { s with dev := d } ∧ bits (rdB .pwr PWR_RAIL rail d) 0 16 = mv % 2 ^ 16 ∧
      (rdB .pwr PWR_RAIL rail d).testBit 24 = true ∧ rdBit .pwr R_EVENT 9 d = true ∧
      onlyRegs [bankKey .pwr PWR_RAIL rail, regKey .pwr R_EVENT] s.dev d)) ∧
  (∀ s : State,
    (∀ t : TapeInput, t.demand.length ≤ 32 → ∃ d, exec (.tapePeriod t) s = .next { s with dev := d } ∧ d.tape.cv = t.cv ∧ d.tape.watts = t.watts ∧
      rdF .pwr PWR_BUDGET 0 16 d = budgetWatts s.dev % 2 ^ 16 ∧ rdBit .pwr R_STATUS 8 d = floorAsked s.dev ∧
      (floorAsked s.dev = true → d.tape.floored = true) ∧ ∀ a, memRd d a = memRd s.dev a) ∧
    (∃ d, exec .tapeRecalibrate s = .next { s with dev := d } ∧ rdF .pwr PWR_IN 0 16 d = s.dev.tape.cv % 2 ^ 16 ∧
      rdF .pwr PWR_IN 16 16 d = s.dev.tape.watts % 2 ^ 16 ∧ onlyRegs [regKey .pwr PWR_IN] s.dev d) ∧
    (s.dev.mod_.rails = true → ∀ hot, hot < 115 → ∃ d, exec (.thermalSample hot) s = .next { s with dev := d } ∧
      rdF .pwr PWR_THERM 24 8 d = hot ∧ rdBit .pwr R_STATUS 11 d = d.tape.hot ∧
      d.tape.hot = (decide (105 ≤ hot) || (s.dev.tape.hot && decide (100 ≤ hot))) ∧
      (rdF .pwr PWR_THERM 0 8 s.dev ≤ hot → s.dev.tape.warned = false → faultValid .pwr d = true ∧ d.tape.warned = true) ∧
      onlyRegs [regKey .pwr PWR_THERM, regKey .pwr R_STATUS, regKey .pwr R_FAULT] { s.dev with tape := d.tape } d))

/-- A sample of the wear monitors is counted and kept; a healthy one changes nothing else, and a channel below its warning latches MARGIN_LOW
(R460 to R463); the hourly summary records every monitor read (R466). -/
def Obligations.WearSamples : Prop :=
  ∀ s : State,
    (∀ w : WearReading, rdBit .age AGE_CFG 16 s.dev = true → idle .age s.dev = false → inReset .age s.dev = false → w.kind = 2 → w.unit < 96 →
      let lim := rd .age AGE_LIMITS s.dev
      (bits lim 16 8 ≤ w.margin → bits lim 24 8 ≤ w.margin → ∃ d, exec (.ageSample w) s = .next { s with dev := d } ∧
        rd64 .age AGE_SAMPLES_LO d = (rd64 .age AGE_SAMPLES_LO s.dev + 1) % 2 ^ 64 ∧
        bits (rdB .age AGE_CLU (256 + w.unit) d) 24 8 = min 255 w.margin ∧
        rd .age AGE_LATE d = (rd .age AGE_LATE s.dev + (if w.late then 1 else 0)) % 2 ^ 32 ∧
        onlyRegs [regKey .age AGE_SAMPLES_LO, regKey .age (AGE_SAMPLES_LO + 4), regKey .age AGE_LATE, bankKey .age AGE_CLU (256 + w.unit)]
          { s.dev with age := d.age } d) ∧
      (w.margin < bits lim 16 8 → bits lim 24 8 ≤ w.margin → ∃ d, exec (.ageSample w) s = .next { s with dev := d } ∧
        rdBit .age R_EVENT 10 d = true ∧ faultValid .age d = true ∧ (faultValid .age s.dev = false → rdF .age R_FAULT 0 16 d = cMarginLow))) ∧
    (∃ d, exec .ageHourlySummary s = .next { s with dev := d } ∧ { d with flash := s.dev.flash } = s.dev ∧
      { d.flash with ages := s.dev.flash.ages } = s.dev.flash ∧
      (s.dev.flash.ages.length ≤ ageRing → d.flash.ages.length = min ageRing (s.dev.flash.ages.length + s.dev.age.last.length)) ∧
      ∀ x r, s.dev.age.last = r ++ [x] → x.1 < 128 → (d.flash.ages.head?.map fun e => (e.kind, e.unit)) = some (4, x.1))

/-! ### Register accesses (R37 to R65, R111, R484 to R488) -/

/-- Blocks whose registers above the common header start nothing when they are written. -/
def Sys2Proof.Machine.plainBlk : Blk → Bool
  | .glb | .mgc | .sel | .clk | .pwr | .age | .pci | .dbg | .die _ | .clu _ _ | .str _ _ _ | .cor _ | .fed _ | .txb _ => true
  | _ => false

/-- A write stores the fields it may write and is logged (R37, R486, R487); one that is denied leaves the register, latches PERM_DENIED and is
logged as denied (R58); one of 64 bits is two of 32, the lower address first (R40). -/
def Obligations.RegisterWrites : Prop :=
  ∀ (s : State) (org : Org),
    (∀ (b : Blk) (o v : Nat) (sp : RegSpec), v < 2 ^ 32 → reaches org b o s.dev → regSpec b o = some sp → sp.w1c = 0 → frozen b o false s.dev = false →
      let a := addrFor org b o s.dev
      let k := accKey b o s.dev
      let m := sp.rw ||| (if locked b s.dev then 0 else sp.rwl)
      (denied org b o 0 v sp s.dev = false → plainBlk b = true → 0x40 ≤ o → o ≠ R_WPERM → ∃ d,
        exec (.registerWrite org a 4 v) s = .next { s with dev := d } ∧
        rdKey d k = ((rdKey s.dev k &&& (all32 - m)) ||| (normReg b o (v &&& m) s.dev &&& m)) % 2 ^ 32 ∧
        (sp.wo = 0 → loggedAs org (regKey b o) (regVal b o s.dev) (regVal b o d) false d) ∧ onlyLogged [k] s.dev d) ∧
      (denied org b o 0 v sp s.dev = true → ∃ d, exec (.registerWrite org a 4 v) s = .next { s with dev := d } ∧
        loggedAs org (regKey b o) (regVal b o s.dev) v true d ∧ faultValid b d = true ∧
        (faultValid b s.dev = false → rdF b R_FAULT 0 16 d = cPermDenied) ∧ onlyLogged [regKey b R_FAULT] s.dev d)) ∧
    (∀ a v : Nat, isHost org = false → inLcw a = false → a % 8 = 0 → ∀ t, exec (.registerWrite org a 4 (v % 2 ^ 32)) s = .next t →
      exec (.registerWrite org a 8 v) s = exec (.registerWrite org (a + 4) 4 (v / 2 ^ 32)) t)

/-- A read answers the register's value and changes nothing (R37); of a 64-bit pair, a read of LO keeps HI for the same origin, whose next read of HI
answers that value (R111). -/
def Obligations.RegisterReads : Prop :=
  ∀ (s : State) (org : Org) (b : Blk) (o : Nat) (sp : RegSpec), reaches org b o s.dev → regSpec b o = some sp →
    s.dev.parityBad.contains (accKey b o s.dev) = false →
    let a := addrFor org b o s.dev
    let hold (p : Nat) := (regKey b p, org.cls, org.id)
    (isLo b o = false → (s.dev.hiLatch.find? fun h => decide (h.1 = hold o)) = none → ¬ (o = SEQ_SB_STAT ∧ ∃ c, b = .seq c) → ¬ (o = LOG_FREAD ∧ b = .log) →
      exec (.registerRead org a 4 []) s = .next { s with dev := { s.dev with out := .regData (regVal b o s.dev) :: s.dev.out } }) ∧
    (isLo b o = true → exec (.counterLoRead org a) s = .next { s with dev := { s.dev with
      out := .regData (regVal b o s.dev) :: s.dev.out
      hiLatch := (hold (o + 4), regVal b (o + 4) s.dev) :: s.dev.hiLatch.filter fun h => decide (h.1 ≠ hold (o + 4)) } }) ∧
    (isLo b o = false → ∀ v, (s.dev.hiLatch.find? fun h => decide (h.1 = hold o)) = some (hold o, v) → ¬ (o = SEQ_SB_STAT ∧ ∃ c, b = .seq c) →
      ¬ (o = LOG_FREAD ∧ b = .log) → exec (.registerRead org a 4 []) s = .next { s with dev := { s.dev with
        out := .regData v :: s.dev.out, hiLatch := s.dev.hiLatch.filter fun h => decide (h.1 ≠ hold o) } })

/-- PARITY_SCAN finds an upset (R54, R55): the block reports it, latches CFG_PARITY and enters its safe state; with nothing upset it changes
nothing. And the accesses that a refit held are served when it is over (R64). -/
def Obligations.ParityAndHeldAccesses : Prop :=
  ∀ s : State,
    (∀ (b : Blk) (o mask : Nat) (sp : RegSpec), blkOk b = true → inReset b s.dev = false → presentBlk (blkBase b) s.dev = some b → regSpec b o = some sp →
      oddOnes (mask &&& (sp.rw ||| sp.rwl)) = true → (∀ k ∈ s.dev.parityBad, keyBlock k ≠ some b) → keyBlock (accKey b o s.dev) = some b →
      regOff (accKey b o s.dev) = o → (∀ k r, b = .msh k r → o ≠ MSH_RT) → ∃ d, exec (.parityScan b [(o, mask)]) s = .next { s with dev := d } ∧
      isSafe b d = true ∧ faultValid b d = true ∧ rdBit b R_CTRL 0 d = false ∧ rdBit b R_CTRL 1 d = true ∧ rdBit b R_PARITY 0 d = true ∧
      (∀ x, memRd d x = memRd s.dev x) ∧ d.fwStore = s.dev.fwStore ∧ d.log = s.dev.log ∧
      ((∀ k i, b ≠ .lnk k i) → d.net = s.dev.net)) ∧
    (∀ b, (∀ k ∈ s.dev.parityBad, keyBlock k ≠ some b) → exec (.parityScan b []) s = .next s) ∧
    (∀ (org : Org) (a len v : Nat), s.dev.lcwHeld = [(org, a, len, some v)] → lcwWaits org a s.dev = false →
      exec .lcwAccessRelease s = exec (.registerWrite org a len v) { s with dev := { s.dev with lcwHeld := [] } }) ∧
    (∀ (org : Org) (a len : Nat), s.dev.lcwHeld = [(org, a, len, none)] → lcwWaits org a s.dev = false →
      exec .lcwAccessRelease s = exec (.registerRead org a len []) { s with dev := { s.dev with lcwHeld := [] } }) ∧
    (∀ (org : Org) (b : Blk) (o : Nat) (sp : RegSpec), reaches org b o s.dev → regSpec b o = some sp →
      let a := addrFor org b o s.dev
      let k := accKey b o s.dev
      let u : Dev := { s.dev with lcwHeld := [] }
      (s.dev.lcwHeld = [(org, a, 4, none)] → s.dev.parityBad.contains k = false → isLo b o = false → o ≠ SEQ_SB_STAT → o ≠ LOG_FREAD →
        (s.dev.hiLatch.find? fun h => decide (h.1 = (regKey b o, org.cls, org.id))) = none →
        exec .lcwAccessRelease s = .next { s with dev := { u with out := .regData (regVal b o s.dev) :: s.dev.out } }) ∧
      (∀ v, v < 2 ^ 32 → s.dev.lcwHeld = [(org, a, 4, some v)] → sp.w1c = 0 → frozen b o false s.dev = false → denied org b o 0 v sp s.dev = false →
        plainBlk b = true → 0x40 ≤ o → o ≠ R_WPERM → ∃ d, exec .lcwAccessRelease s = .next { s with dev := d } ∧
          (let m := sp.rw ||| (if locked b s.dev then 0 else sp.rwl)
           rdKey d k = ((rdKey s.dev k &&& (all32 - m)) ||| (normReg b o (v &&& m) s.dev &&& m)) % 2 ^ 32) ∧ onlyLogged [k] u d))

/-! ### Coordinated change (R211 to R216) -/

/-- A pair joins the list being built; GO arms it in the lowest free entry when its Stitch is more than one away and every block of it allows the
writer, and refuses it otherwise; CANCEL withdraws an entry whose Stitch is at least two away; DISCARD empties the list; a pair delivered is
acknowledged; MISS_LEVELLED releases its entry of the miss table. -/
def Obligations.ArmedChanges : Prop :=
  ∀ (s : State) (org : Org) (val : Nat), val < 2 ^ 32 →
    let t := s.dev.tck
    let st := regKey .tck TCK_ARM_STAT
    let ctl := regKey .tck TCK_ARM_CTL
    let now := stitchNum s.dev
    let n := rd64 .tck TCK_ARM_NUM_LO s.dev
    let mine (p : Nat × Nat) : Bool := match blkOf org p.1 s.dev with | some b => allows b org.cls s.dev | none => false
    (writable org .tck TCK_ARM_DATA val s.dev → t.building.length < 256 → ∃ d, exec (.armData org val) s = .next { s with dev := d } ∧
      d.tck = { t with building := t.building ++ [(rdF .tck TCK_ARM_ADDR 0 28 s.dev, val)] } ∧
      rdF .tck TCK_ARM_STAT 20 9 d = t.building.length + 1 ∧ onlyLogged [st] { s.dev with tck := d.tck } d) ∧
    (writable org .tck TCK_ARM_DATA val s.dev → 256 ≤ t.building.length → ∃ d, exec (.armData org val) s = .next { s with dev := d } ∧
      rdBit .tck TCK_ARM_STAT 11 d = true ∧ onlyLogged [st] s.dev d) ∧
    (writable org .tck TCK_ARM_CTL (val ||| 1) s.dev → bits val 1 2 = 0 → isSafe .tck s.dev = false →
      (∀ e, freeEntry s.dev = some e → now + 1 < n → t.building.all mine = true → ∃ d, exec (.armGo org val) s = .next { s with dev := d } ∧
        d.tck = { t with building := [], armed := t.armed ++ [(e, { n := n, org := org, pairs := t.building })] } ∧
        rdF .tck TCK_ARM_STAT 16 4 d = e ∧ rdF .tck TCK_ARM_STAT 8 3 d = 0 ∧ rdF .tck TCK_ARM_STAT 0 5 d = 16 - (t.armed.length + 1) ∧
        onlyLogged [st, ctl] { s.dev with tck := d.tck } d) ∧
      (t.building.all mine = true → n ≤ now + 1 → ∃ d, exec (.armGo org val) s = .next { s with dev := d } ∧ d.tck = { t with building := [] } ∧
        rdBit .tck TCK_ARM_STAT 8 d = true ∧ onlyLogged [st, ctl] { s.dev with tck := d.tck } d)) ∧
    (writable org .tck TCK_ARM_CTL (val ||| 2) s.dev → bits val 0 1 = 0 → bits val 2 1 = 0 → ∃ d,
      exec (.armCancel org val) s = .next { s with dev := d } ∧
      d.tck = { t with armed := t.armed.filter fun a => !(a.1 == bits val 8 4 && decide (now + 2 ≤ a.2.n)) } ∧
      (t.armed.length ≤ 16 → rdF .tck TCK_ARM_STAT 0 5 d = 16 - d.tck.armed.length) ∧ onlyLogged [st, ctl] { s.dev with tck := d.tck } d) ∧
    (writable org .tck TCK_ARM_CTL (val ||| 4) s.dev → bits val 0 2 = 0 → ∃ d, exec (.armDiscard org val) s = .next { s with dev := d } ∧
      d.tck = { t with building := [] } ∧ rdF .tck TCK_ARM_STAT 20 9 d = 0 ∧ rdBit .tck TCK_ARM_STAT 11 d = false ∧
      onlyLogged [st, ctl] { s.dev with tck := d.tck } d) ∧
    (writable org .tck TCK_MISS_INFO (val ||| 512) s.dev →
      let i := rdF .tck TCK_MISS_SEL 0 5 s.dev
      bit (rdB .tck TCK_MISS_INFO i s.dev) 8 = true → ∃ d, exec (.missLevelled org val) s = .next { s with dev := d } ∧
        rdB .tck TCK_MISS_INFO i d = 0 ∧ rdB .tck TCK_MISS i d = 0 ∧ rdF .tck TCK_MISS_CNT 0 6 d = rdF .tck TCK_MISS_CNT 0 6 s.dev - 1 ∧
        onlyLogged [bankKey .tck TCK_MISS_INFO i, bankKey .tck TCK_MISS i, regKey .tck TCK_MISS_CNT] s.dev d) ∧
    (∀ e k a b, (t.armed.find? fun x => x.1 == e) = some (e, a) → pairBlk a k s.dev = some b → a.acked.contains k = false → inReset b s.dev = false →
      pendingPairs b s.dev < 4 → now + 2 ≤ a.n → exec (.armedPairDelivery e k) s = .next { s with dev := { s.dev with tck := { t with
        armed := t.armed.map fun x => if x.1 = e then (e, { x.2 with acked := x.2.acked ++ [k] }) else x } } })

/-! ### The change log (R486 to R496) -/

/-- LOG_HACK keeps at or below what has been copied; LOG_CTL hashes the newest entry and seals the tail; LOG_FREAD reads on; an entry that is due
goes to the host ring; a seal is done or has failed. -/
def Obligations.ChangeLogServices : Prop :=
  ∀ (s : State) (org : Org) (val : Nat), val < 2 ^ 32 →
    (writable org .log LOG_HACK_HI val s.dev → ∃ d, exec (.logHackWrite org val) s = .next { s with dev := d } ∧
      rd64 .log LOG_HACK_LO d = min (rd .log LOG_HACK_LO s.dev + val * 2 ^ 32) (logHwr d) ∧ d.log.hack = rd64 .log LOG_HACK_LO d ∧
      onlyLogged [regKey .log LOG_HACK_LO, regKey .log (LOG_HACK_LO + 4)] s.dev d) ∧
    (writable org .log LOG_CTL (val ||| 1) s.dev → bits val 1 1 = 0 → ∃ d, exec (.logCtlHash org val) s = .next { s with dev := d } ∧
      rd64 .log LOG_HSEQ_LO d = logSeq d - 1 ∧
      (∀ i, i < 8 → rd .log (LOG_HASH0 + 4 * i) d = ofBytes (((headHash d).drop (4 * i)).take 4)) ∧
      onlyLogged ([regKey .log LOG_HSEQ_LO, regKey .log (LOG_HSEQ_LO + 4)] ++ (List.range 8).map fun i => regKey .log (LOG_HASH0 + 4 * i)) s.dev d) ∧
    (writable org .log LOG_CTL (val ||| 2) s.dev → bits val 0 1 = 0 → sealedLately s.dev = false → s.dev.sealing = none → logSeq s.dev + 1 < 2 ^ 64 → ∃ d x,
      exec (.logCtlSeal org val) s = .next { s with dev := d } ∧ d.sealing = some x ∧ x.reason = 2 ∧ x.done = false ∧
      x.chain = rd64 .log LOG_CHAIN_LO s.dev ∧ x.stitch = stitchNum s.dev ∧ x.r = headHash d ∧ x.slot = rdF .log LOG_SEAL 8 6 d ∧
      d.flash = { s.dev.flash with seals := x :: s.dev.flash.seals.filter fun y => y.slot != x.slot } ∧ d.log.lastSeal = some (stitchNum s.dev) ∧
      (approved s.dev = true → faultValid .log d = faultValid .log s.dev) ∧ (approved s.dev = false → x.sig = [] ∧ faultValid .log d = true) ∧
      onlyLogged [regKey .log LOG_SEAL, regKey .log R_FAULT] { s.dev with sealing := d.sealing, flash := d.flash } d) ∧
    (reaches org .log LOG_FREAD s.dev → s.dev.parityBad.contains (regKey .log LOG_FREAD) = false →
      (s.dev.hiLatch.find? fun h => decide (h.1 = (regKey .log LOG_FREAD, org.cls, org.id))) = none → ∃ d,
      exec (.logFreadRead org) s = .next { s with dev := d } ∧ d.out = .regData (regVal .log LOG_FREAD s.dev) :: s.dev.out ∧
      rdF .log LOG_FREAD_SEL 8 15 d = (rdF .log LOG_FREAD_SEL 8 15 s.dev + 1) % 2 ^ 15 ∧
      onlyRegsOut [regKey .log LOG_FREAD_SEL] { s.dev with free := d.free } d) ∧
    (∀ e, copyDue s.dev = true → entryAt (logHwr s.dev) s.dev = some e → hostHolds false s.dev = false → logHwr s.dev + 1 < 2 ^ 64 →
      let w := Out.hostWrite (rd64 .log LOG_HBASE_LO s.dev + logHwr s.dev % hostRing s.dev * 32) (entryBytes e)
      ∃ d, exec .logHostCopy s = .next { s with dev := d } ∧ logHwr d = logHwr s.dev + 1 ∧
        (logHwr s.dev % 256 ≠ 255 → d.out = w :: s.dev.out) ∧
        (logHwr s.dev % 256 = 255 → ∀ h, hashAt (logHwr s.dev / 256) s.dev = some h → d.out =
          .hostWrite (rd64 .log LOG_HLINK_LO s.dev + logHwr s.dev / 256 % (hostRing s.dev / 256) * 32) h :: w :: s.dev.out) ∧
        onlyRegsOut [regKey .log LOG_HWR_LO, regKey .log (LOG_HWR_LO + 4), regKey .log R_EVENT] s.dev d) ∧
    (∀ x, s.dev.sealing = some x → (∃ d, exec (.sealComplete true) s = .next { s with dev := d } ∧ rdBit .log R_EVENT 10 d = true ∧
        d.flash = { s.dev.flash with seals := s.dev.flash.seals.map fun y => if y.slot = x.slot then { y with done := true } else y } ∧
        onlyRegs [regKey .log LOG_SEAL, regKey .log R_EVENT] { s.dev with sealing := none, flash := d.flash } d) ∧
      (∃ d, exec (.sealComplete false) s = .next { s with dev := d } ∧ faultValid .log d = true ∧
        (faultValid .log s.dev = false → rdF .log LOG_SEAL 16 3 d = 3 ∧ rdF .log R_FAULT 0 16 d = cLogSealFail) ∧
        onlyRegs [regKey .log LOG_SEAL, regKey .log R_FAULT] { s.dev with sealing := none } d))

/-! ### Resets of parts of the chip (R25 to R28, R433 to R447) -/

/-- A reset begins (R28, R433, R446): its record is written, its ports are fenced, and while a request of its units is outstanding it waits. With
nothing outstanding a reset is performed at once: of a core (R435), its local memory reads 0 and everything it holds is cleared, and no other byte
of memory changes; of an engine that holds no requests, nothing but its record, its fence and its state. A request withdrawn by the drain limit
leaves the domain in reset too (R433). -/
def Obligations.BlockResets : Prop :=
  (∀ (s : State) (cause : Nat), s.dev.runs = [] →
    let waits (m : Dom) : Prop := ∃ q ∈ s.dev.net.reqs, byDom m q.by_ s.dev = true
    (∀ c, coreOk c = true → slotAbsent c s.dev = false → waits (.core c) → ∃ d, exec (.coreReset c cause) s = .next { s with dev := d } ∧
      resetBegun (.core c) [.core c] (.rstd c.die) 2 (blkInstance (.cor c)) cause s.dev d) ∧
    (∀ k c, k < 4 → c < 8 → waits (.cluster k c) → ∃ d, exec (.clusterReset k c cause) s = .next { s with dev := d } ∧
      resetBegun (.cluster k c) [.cluster k c] (.rstd k) 3 (blkInstance (.clu k c)) cause s.dev d) ∧
    (∀ k, k < 4 → waits (.die k) → s.dev.binds = [] → pressContexts s.dev = [] →
      (∃ d, exec (.dieReset k cause) s = .next { s with dev := d } ∧ resetBegun (.die k) [.die k] (.rstd k) 4 (blkInstance (.die k)) cause s.dev d) ∧
      (∃ d, exec (.fabricTimeout k) s = .next { s with dev := d } ∧ rdBit (.rstd k) R_EVENT 9 d = true ∧
        resetBegun (.die k) [.die k] (.rstd k) 4 (blkInstance (.die k)) 4 s.dev d)) ∧
    (∀ k c i, k < 4 → c < 8 → i < 2 → waits (.engine (.str k c i)) → ∃ d, exec (.engineReset (.str k c i) cause) s = .next { s with dev := d } ∧
      resetBegun (.engine (.str k c i)) [.engine (.str k c i)] (.rstd k) 1 (blkInstance (.str k c i)) cause s.dev d) ∧
    (∀ ctx, ctx < 64 → hostHolds false s.dev = false → (∃ c ∈ ctxCores ctx s.dev, waits (.core c)) → ∃ d,
      exec (.contextReset ctx cause) s = .next { s with dev := d } ∧
      resetBegun (.context ctx) ((ctxCores ctx s.dev).map .core) .rst 0 ctx cause s.dev d ∧
      (rd64 .tck TCK_FRAME_EN_LO d).testBit ctx = false ∧ d.out = .msix (ctx + 1) 0 :: s.dev.out ∧
      d.tck.armed = s.dev.tck.armed.filter fun a => a.2.ctx != some ctx)) ∧
  (∀ (s : State) (cause : Nat),
    (s.dev.runs = [] → s.dev.net.reqs = [] → s.dev.net.groups = [] → ∀ c, coreOk c = true → slotAbsent c s.dev = false → ∃ d,
      exec (.coreReset c cause) s = .next { s with dev := d } ∧ .core c ∈ d.resets ∧
      d.runs = [{ dom := .core c, doms := [.core c], rst := .rstd c.die, entry := rdF (.rstd c.die) RST_REC_HEAD 0 4 s.dev, done := true }] ∧
      recordIs (.rstd c.die) (rdF (.rstd c.die) RST_REC_HEAD 0 4 s.dev) 2 (blkInstance (.cor c)) cause d ∧
      getCore c d = { nextJob := (getCore c s.dev).nextJob, nextWord := (getCore c s.dev).nextWord } ∧
      (∀ a, keyLoc c 0 ≤ a → a < keyLoc c 0 + 2 ^ 23 → memRd d a = 0) ∧ memKept (keyLoc c 0) (2 ^ 23) s.dev d) ∧
    (s.dev.runs = [] → s.dev.net.reqs = [] → s.dev.net.groups = [] → ∀ b, b ∈ [Blk.tck, .fab, .mgc, .clk, .pwr, .age, .mrk] →
      ∃ d, exec (.engineReset b cause) s = .next { s with dev := d } ∧ d.resets = s.dev.resets ++ [Dom.engine b].filter (fun m => !s.dev.resets.contains m) ∧
        d.runs = [{ dom := .engine b, doms := [.engine b], rst := .rst, entry := rdF .rst RST_REC_HEAD 0 4 s.dev, done := true }] ∧
        recordIs .rst (rdF .rst RST_REC_HEAD 0 4 s.dev) 1 (blkInstance b) cause d ∧ fenced b d = true ∧ d.mem = s.dev.mem) ∧
    (∀ b, (watchdogHeld b s.dev = true → exec (.unitWatchdog b) s = .next s) ∧ (watchdogHeld b s.dev = false → exec (.unitWatchdog b) s = exec (.engineReset b 2) s)) ∧
    (s.dev.runs = [] → s.dev.net.reqs = [] → s.dev.net.groups = [] → ∀ b, b ∈ [Blk.tck, .fab, .mgc, .clk, .pwr, .age, .mrk] →
      rdBit b R_CTRL 0 s.dev = true → fenced b s.dev = false → isSafe b s.dev = false → s.dev.net.holding = none →
      ∃ d, exec (.unitWatchdog b) s = .next { s with dev := d } ∧ .engine b ∈ d.resets ∧
        recordIs .rst (rdF .rst RST_REC_HEAD 0 4 s.dev) 1 (blkInstance b) 2 d ∧ fenced b d = true ∧ d.mem = s.dev.mem) ∧
    (∀ m r, (s.dev.runs.find? fun r => decide (r.dom = m) && !r.done) = some r → ∃ d, exec (.drainLimitExpiry m) s = .next { s with dev := d } ∧
      ∀ x ∈ r.doms, x ∈ d.resets))

/-- Blocks of which a write of CTRL lets nothing that is held go on. -/
def Sys2Proof.Machine.plainCtrl : Blk → Bool
  | .fab | .lnk _ _ | .str _ _ _ | .prs _ | .snp _ | .nsc _ _ | .fmc _ _ => false
  | _ => true

/-- Reset requests through registers (R47, R440, R445) and the escalations of R438 to R440: each is the reset that it names. A reset ends (R435): its
run goes, the record tells, and RST reports it. Core firmware (R443, R444, R447): UPDATE puts every core that works in reset to wait for its
chunks, and a chunk that matches its digest is kept. -/
def Obligations.RequestedResets : Prop :=
  (∀ (s : State) (org : Org) (val : Nat), val < 2 ^ 32 →
    let waits (m : Dom) : Prop := ∃ q ∈ s.dev.net.reqs, byDom m q.by_ s.dev = true
    (∀ b, writable org b R_CTRL (val ||| 4) s.dev → isSafe b s.dev = false → isSafe (rstOf b) s.dev = false → missListed b s.dev = false →
      plainCtrl b = true → ∃ d, onlyLogged [regKey b R_CTRL] s.dev d ∧
      rdF b R_CTRL 0 2 d = bits val 0 2 ∧ exec (.resetReq org b 0 val) s = (match b with
        | .die k => exec (.dieReset k 0) { s with dev := d }
        | .clu k c => exec (.clusterReset k c 0) { s with dev := d }
        | .cor c => exec (.coreReset c 0) { s with dev := d }
        | _ => exec (.engineReset b 0) { s with dev := d })) ∧
    (∀ b, writable org b R_CTRL (val ||| 4) s.dev → isSafe b s.dev = false → isSafe (rstOf b) s.dev = false → missListed b s.dev = false →
      s.dev.runs = [] →
      (∀ c, b = .cor c → coreOk c = true → slotAbsent c s.dev = false → waits (.core c) → ∃ d,
        exec (.resetReq org b 0 val) s = .next { s with dev := d } ∧ resetBegun (.core c) [.core c] (.rstd c.die) 2 (blkInstance b) 0 s.dev d) ∧
      (∀ k c, b = .clu k c → k < 4 → c < 8 → waits (.cluster k c) → ∃ d,
        exec (.resetReq org b 0 val) s = .next { s with dev := d } ∧ resetBegun (.cluster k c) [.cluster k c] (.rstd k) 3 (blkInstance b) 0 s.dev d) ∧
      (b ∈ [Blk.mgc, .clk, .pwr, .age] → s.dev.net.reqs = [] → s.dev.net.groups = [] → ∃ d,
        exec (.resetReq org b 0 val) s = .next { s with dev := d } ∧ .engine b ∈ d.resets ∧
        recordIs .rst (rdF .rst RST_REC_HEAD 0 4 s.dev) 1 (blkInstance b) 0 d ∧ fenced b d = true ∧ d.mem = s.dev.mem)) ∧
    (writable org .rst RST_CTX_RESET (val ||| 256) s.dev → isSafe .rst s.dev = false →
      (∃ d, onlyLogged [] s.dev d ∧ exec (.rstCtxReset org val) s = exec (.contextReset (bits val 0 6) 0) { s with dev := d }) ∧
      (s.dev.runs = [] → hostHolds false s.dev = false → (∃ c ∈ ctxCores (bits val 0 6) s.dev, waits (.core c)) → ∃ d,
        exec (.rstCtxReset org val) s = .next { s with dev := d } ∧
        resetBegun (.context (bits val 0 6)) ((ctxCores (bits val 0 6) s.dev).map .core) .rst 0 (bits val 0 6) 0 s.dev d ∧
        d.out = .msix (bits val 0 6 + 1) 0 :: s.dev.out)) ∧
    (writable org .rst RST_WDOG_KICK (val ||| 1) s.dev → ∃ d, exec (.rstWdogKick org val) s = .next { s with dev := d } ∧ onlyLogged [] s.dev d ∧
      loggedAs org (regKey .rst RST_WDOG_KICK) (regVal .rst RST_WDOG_KICK s.dev) (regVal .rst RST_WDOG_KICK s.dev ||| 1) false d) ∧
    (∀ ctx r, (s.dev.runs.find? fun r => decide (r.dom = .context ctx)) = some r →
      let u : Dev := setEvent .rst 9 s.dev
      ((∀ m ∈ r.doms, ∀ q ∈ s.dev.net.reqs, byDom m q.by_ s.dev = false) → s.dev.net.groups = [] → exec (.contextResetTimeout ctx) s = .next { s with dev := u }) ∧
      (∀ c q, r.doms = [.core c] → q ∈ s.dev.net.reqs → byDom (.core c) q.by_ s.dev = true →
        exec (.contextResetTimeout ctx) s = exec (.coreReset c 3) { s with dev := u }) ∧
      (∀ c q, s.dev.runs = [r] → r.rst = .rst → r.doms = [.core c] → coreOk c = true → slotAbsent c s.dev = false → q ∈ s.dev.net.reqs →
        byDom (.core c) q.by_ s.dev = true → ∃ d x, exec (.contextResetTimeout ctx) s = .next { s with dev := d } ∧ rdBit .rst R_EVENT 9 d = true ∧
          x ∈ d.runs ∧ x.dom = .core c ∧ x.doms = [.core c])) ∧
    (∀ b k r, blkDie b = some k → r ∈ s.dev.runs → r.dom = .engine b →
      exec (.engineResetTimeout b) s = exec (.dieReset k 3) { s with dev := setEvent (.rstd k) 9 s.dev } ∧
      (k < 4 → s.dev.runs = [r] → r.doms = [.engine b] → domCovers (.die k) (.engine b) = true → s.dev.binds = [] → pressContexts s.dev = [] →
        waits (.die k) → ∃ d x, exec (.engineResetTimeout b) s = .next { s with dev := d } ∧ rdBit (.rstd k) R_EVENT 9 d = true ∧
          x ∈ d.runs ∧ x.dom = .die k ∧ x.doms = [.die k] ∧ ∀ b' ∈ domBlks (.die k), fenced b' d = true)) ∧
    (∀ k r, r ∈ s.dev.runs → r.dom = .die k → ∃ d, exec (.dieResetTimeout k) s = .next { s with dev := d } ∧ rdBit .rst RST_HB 16 d = true ∧
      rdBit (.rstd k) R_EVENT 9 d = true ∧ onlyRegs [regKey .rst RST_HB, regKey (.rstd k) R_EVENT] s.dev d) ∧
    (∀ n, n < 32 → s.dev.runs = [] → waits (.cluster (n / 8) (n % 8)) → ∃ d, exec (.railReset n) s = .next { s with dev := d } ∧
      resetBegun (.cluster (n / 8) (n % 8)) [.cluster (n / 8) (n % 8)] (.rstd (n / 8)) 3 (blkInstance (.clu (n / 8) (n % 8))) 6 s.dev d) ∧
    (∀ n, (n < 32 → exec (.railReset n) s = exec (.clusterReset (n / 8) (n % 8) 6) s) ∧
      (32 ≤ n → n < 36 → exec (.railReset n) s = exec (.dieReset (n - 32) 6) s) ∧
      (36 ≤ n → n < 44 → exec (.railReset n) s = exec (.dieReset ((n - 36) / 2) 6) s) ∧
      (44 ≤ n → n < 48 → exec (.railReset n) s = exec (.dieReset (n - 44) 6) s))) ∧
  (∀ s : State,
    (∀ m r found, (s.dev.runs.find? fun r => decide (r.dom = m) && r.done) = some r → ∃ d, exec (.resetExit m found) s = .next { s with dev := d } ∧
      rdBit r.rst R_EVENT 8 d = true) ∧
    (∀ b r, b ∈ [Blk.tck, .fab, .mgc, .clk, .pwr, .age, .mrk] → s.dev.runs = [r] → r.dom = .engine b → r.doms = [.engine b] → r.rst = .rst → r.done = true →
      s.dev.resets = [.engine b] → isSafe b s.dev = false → ∃ d, exec (.resetExit (.engine b) []) s = .next { s with dev := d } ∧ d.runs = [] ∧ d.resets = [] ∧
      rdBit b R_CTRL 0 d = true ∧ (missListed b s.dev = false → fenced b d = false) ∧
      onlyRegs [regKey b R_CTRL, regKey b R_WPERM, regKey .rst R_EVENT, bankKey .rst RST_REC_US r.entry]
        { s.dev with runs := [], resets := [], free := s.dev.free + 1 } d) ∧
    (∀ org val, writable org .rst RST_FW (val ||| 0x10000000) s.dev → isSafe .rst s.dev = false → boundCtxs s.dev = [] → ∃ d,
      exec (.fwUpdate org val) s = .next { s with dev := d } ∧ (∀ a, memRd d a = memRd s.dev a) ∧
      ∀ c ∈ allCores, coreAlive c s.dev = true → (getCore c d).fwWait = true ∧ (getCore c d).chunks = [] ∧ .core c ∈ d.resets ∧ fenced (.cor c) d = false) ∧
    (∀ c k data, s.dev.binds = [] → fenced (.cor c) s.dev = false → (getCore c s.dev).fwWait = true → (getCore c s.dev).chunks.contains k = false →
      k < fwChunks (coreTy c) s.dev → (getCore c s.dev).chunks.length + 1 ≠ fwChunks (coreTy c) s.dev →
      chunkOk (coreTy c) k data s.dev = true → data.length ≤ 4096 → ∃ d, exec (.firmwareChunkReceive c k data false) s = .next { s with dev := d } ∧
      (getCore c d).chunks = (getCore c s.dev).chunks ++ [k] ∧ (∀ i, i < data.length → fwBytes c (4096 * k + i) 1 d = [data.getD i 0]) ∧
      { d with fwStore := s.dev.fwStore, cores := s.dev.cores } = s.dev))

/-! ### The host port (R26, R234, R237, R425, R502 to R507) -/

/-- Errors of the granules of a range that its memory's code corrects, or none (R222, R225, R229). -/
def Sys2Proof.Machine.correctable (k n : Nat) (d : Dev) : Prop := ∀ g ∈ gransOf k n, flawAt g d ≤ (eccLimits (keyBlk g d) d).1

/-- While every posted write that waits must go on waiting: a read of BAR2 or BAR4 answers the bytes stored and changes no byte; a write that no window
and no reserve refuses lands its bytes and changes no other, or waits behind its unit or an earlier write of its function (R156); a refused access answers its status, reports the error and changes no byte; BAR0 is an access to the registers (R36, R65, R237, R503).
Configuration requests complete (R502, R503); host-side errors are reported through AER and the error log (R507). -/
def Obligations.HostAccesses : Prop :=
  (∀ (s : State) (fn : Nat), fn ≤ 64 → hostUp s.dev = true → hostServed s.dev = true → (∀ w ∈ s.dev.host.posted, postedHeld w s.dev = true) →
    (∀ bar off len k, bar = 2 ∨ bar = 4 → portDeny s.dev = none → hostSpot fn bar off len s.dev = .key k →
      (∀ p ∈ hostPieces k len, pieceShut p.1 s.dev = false ∧ pieceHeld p.1 s.dev = false) → (∀ w ∈ s.dev.host.posted, w.fn ≠ fn) →
      correctable k len s.dev → ∃ d,
      exec (.hostMemoryRead fn bar off len []) s = .next { s with dev := d } ∧
      d.out = .hostCpl (memBytes k len s.dev) 0 (anyPoison k len s.dev) :: s.dev.out ∧ ∀ a, memRd d a = memRd s.dev a) ∧
    (∀ bar off (data : List Byte) ep k, bar = 2 ∨ bar = 4 → portDeny s.dev = none → hostSpot fn bar off data.length s.dev = .key k → data ≠ [] →
      (∀ p ∈ hostPieces k data.length, pieceHeld p.1 s.dev = false) → (∀ w ∈ s.dev.host.posted, w.fn ≠ fn) → correctable k data.length s.dev →
      (∀ g ∈ gransOf k data.length, rdBit (keyBlk g s.dev) ECC_INJ 3 s.dev = false) → ∃ d,
      exec (.hostMemoryWrite fn bar off data ep) s = .next { s with dev := d } ∧ memKept k data.length s.dev d ∧ d.out = s.dev.out ∧
      (k / 64 = (k + data.length - 1) / 64 → windowHit k data.length s.dev = false → inReserve k data.length = false → pieceShut k s.dev = false →
        (∀ i, i < data.length → keyFailed (k + i) s.dev = false) → ∀ i, i < data.length → memRd d (k + i) = data.getD i 0)) ∧
    (∀ bar off (data : List Byte) ep k, bar = 2 ∨ bar = 4 → portDeny s.dev = none → hostSpot fn bar off data.length s.dev = .key k →
      ((∃ p ∈ hostPieces k data.length, pieceHeld p.1 s.dev = true) ∨ (∃ w ∈ s.dev.host.posted, w.fn = fn)) →
      exec (.hostMemoryWrite fn bar off data ep) s = .next { s with dev := { s.dev with host := { s.dev.host with
        posted := s.dev.host.posted ++ [{ fn := fn, key := k, data := data, ep := ep }] } } }) ∧
    (∀ bar off len k, bar = 2 ∨ bar = 4 → portDeny s.dev = none → hostSpot fn bar off len s.dev = .key k →
      (∀ p ∈ hostPieces k len, pieceShut p.1 s.dev = false) → ((∃ p ∈ hostPieces k len, pieceHeld p.1 s.dev = true) ∨ (∃ w ∈ s.dev.host.posted, w.fn = fn)) →
      exec (.hostMemoryRead fn bar off len []) s = .next s) ∧
    (∀ bar off len x, bar = 2 ∨ bar = 4 → portDeny s.dev = none → hostSpot fn bar off len s.dev = .deny x → ∃ d,
      exec (.hostMemoryRead fn bar off len []) s = .next { s with dev := d } ∧ d.out = .hostCpl [] 1 false :: s.dev.out ∧
      rdBit .pci R_EVENT 9 d = true ∧ faultValid .pci d = true ∧ ∀ a, memRd d a = memRd s.dev a) ∧
    (∀ bar off (data : List Byte) ep x, bar = 2 ∨ bar = 4 → portDeny s.dev = none → hostSpot fn bar off data.length s.dev = .deny x → ∃ d,
      exec (.hostMemoryWrite fn bar off data ep) s = .next { s with dev := d } ∧ d.out = s.dev.out ∧
      rdBit .pci R_EVENT 9 d = true ∧ faultValid .pci d = true ∧ ∀ a, memRd d a = memRd s.dev a) ∧
    (∀ off len, exec (.hostMemoryRead fn 0 off len []) s =
      exec (.registerRead (if fn = 0 then ⟨1, 0⟩ else ⟨2, fn⟩) (if fn = 0 then off else 0x0C000000 + off) len []) s) ∧
    (∀ off (data : List Byte), exec (.hostMemoryWrite fn 0 off data false) s =
      exec (.registerWrite (if fn = 0 then ⟨1, 0⟩ else ⟨2, fn⟩) (if fn = 0 then off else 0x0C000000 + off) data.length (ofBytes data)) s)) ∧
  (∀ s : State, hostUp s.dev = true →
    (hostServed s.dev = true → ∀ fn off, fn ≤ 64 → off < 4096 → off % 4 = 0 →
      (∃ d bs, exec (.hostConfigRequest fn off none) s = .next { s with dev := d } ∧ d = { s.dev with out := .hostCpl bs 0 false :: s.dev.out, free := d.free } ∧
        bs.length = 4 ∧ (off = 0 → bs.take 2 = [0x5C, 0x1F] ∧ bs.drop 2 = (if fn ≠ 0 then [0x19, 0x9A] else if gradeS s.dev then [0x0A, 0x9A] else [0x09, 0x9A])) ∧
        (off = 8 → bs.drop 1 = [0x00, 0x00, 0x12])) ∧
      (∀ v, v < 2 ^ 32 → ∃ d, exec (.hostConfigRequest fn off (some v)) s = .next { s with dev := d } ∧
        d = { s.dev with out := .hostCpl [] 0 false :: s.dev.out, host := { s.dev.host with cfg := d.host.cfg, bar4 := d.host.bar4 } } ∧
        Sparse.get hostInit d.host.cfg (4096 * fn + off) = v ∧
        (∀ p, p ≠ 4096 * fn + off → Sparse.get hostInit d.host.cfg p = Sparse.get hostInit s.dev.host.cfg p) ∧
        (d.host.bar4 = s.dev.host.bar4 ∨ (30 ≤ d.host.bar4 ∧ d.host.bar4 ≤ 41)))) ∧
    (hostServed s.dev = false → ∀ fn off w, exec (.hostConfigRequest fn off w) s = .next { s with dev := { s.dev with out := .hostCpl [] 2 false :: s.dev.out } }) ∧
    (∀ e fn h, e ≠ .completionTimeout → h.length = 4 → (∀ x ∈ h, x < 2 ^ 32) →
      let n := s.dev.host.errNext % 16
      ∃ d, exec (.hostTlpError e fn h) s = .next { s with dev := d } ∧ rdBit .pci R_EVENT 9 d = true ∧
        rdB .pci PCI_ERRLOG n d = (aerBits e).1 + fn % 2 ^ 14 * 256 ∧
        (headerLogged e = true → ∀ i, i < 4 → rdB .pci PCI_ERRLOG (n + 16 * (i + 1)) d = h.getD i 0) ∧
        Sparse.get hostInit d.host.aer fn = (Sparse.get hostInit s.dev.host.aer fn ||| (aerBits e).2) ∧ d.host.errNext = (n + 1) % 16 ∧
        onlyRegs (regKey .pci R_EVENT :: (List.range 5).map fun i => bankKey .pci PCI_ERRLOG (n + 16 * i)) { s.dev with host := d.host } d) ∧
    (∀ tag data, (s.dev.hostReads.find? fun r => r.1 == tag) = none → ∃ d, exec (.hostCompletion tag data) s = .next { s with dev := d } ∧
      rdBit .pci R_EVENT 9 d = true ∧ d.mem = s.dev.mem ∧ d.hostReads = s.dev.hostReads))

/-- Resets of the host port (R505): grants are cleared and configuration returns to its reset state; a VF's FLR resets its context; a lost link
retrains at a legal speed and width (R502). -/
def Obligations.HostPortResets : Prop :=
  ∀ s : State, hostUp s.dev = true →
    let cleared (d : Dev) : Prop := d.host.cfg = [] ∧ d.host.bar4 = 41 ∧ ∀ i, ∀ o ∈ [PCI_GRANT, PCI_GRANT_BASE, PCI_GRANT_LEN], rdB .pci o i d = 0
    let trained (d : Dev) : Prop := 1 ≤ rdF .pci PCI_LINK 0 3 d ∧ rdF .pci PCI_LINK 0 3 d ≤ 6 ∧ rdF .pci PCI_LINK 4 5 d ∈ [1, 2, 4, 8, 16]
    (hostServed s.dev = true → (∃ d, exec .pfFlr s = .next { s with dev := d } ∧ cleared d ∧ (boundCtxs s.dev = [] →
      { d with regs := s.dev.regs, parityBad := s.dev.parityBad } = { s.dev with host := d.host } ∧
      ∀ k, isGrant k = false → rdKey d k = rdKey s.dev k)) ∧
      (∀ vf t, 1 ≤ vf → vf ≤ 64 → exec (.contextReset (vf - 1) 0) s = .next t → ∃ h, exec (.vfFlr vf) s = .next { t with dev := { t.dev with host := h } } ∧
        h = { t.dev.host with cfg := h.cfg } ∧ (∀ off, off < 4096 → Sparse.get hostInit h.cfg (4096 * vf + off) = 0) ∧
        ∀ p, ¬ (4096 * vf ≤ p ∧ p < 4096 * vf + 4096) → Sparse.get hostInit h.cfg p = Sparse.get hostInit t.dev.host.cfg p)) ∧
    (rdF .pci PCI_LINK 0 3 s.dev ≠ 0 → ∃ d, exec .hostLinkDown s = .next { s with dev := d } ∧ trained d ∧ (hostServed s.dev = true → cleared d) ∧
      (hostServed s.dev = false → onlyRegs [regKey .pci PCI_LINK] { s.dev with free := s.dev.free + 2 } d))

/-! ### The array (R77, R88, R97, R110, R122 to R131, R163 to R167, R524) -/

/-- The cycle: a throttled or a safe array only counts its frozen cycle (R124, R125); a cycle with no product at the edge moves the pipeline's slices
on and accumulates them (R122). A feeder reads ahead one slice in order or is stopped by what it reads, and what is in flight reaches the buffer
(R524). A due swap exchanges the sets, and a START pass takes an empty set of its tag (R77, R127). -/
def Obligations.ArrayEdge : Prop :=
  ∀ (s : State) (c : CoreRef), coreOk c = true → isMatrix c = true →
    let a := getArr c s.dev
    let frozen (ctr : Nat) (d : Dev) : Prop := rd (.fed c) ctr d = (rd (.fed c) ctr s.dev + 1) % 2 ^ 32 ∧
      rd64 (.fed c) FED_FRZ_TOTAL_LO d = (rd64 (.fed c) FED_FRZ_TOTAL_LO s.dev + 1) % 2 ^ 64 ∧
      onlyRegs [regKey (.fed c) ctr, regKey (.fed c) FED_FRZ_TOTAL_LO, regKey (.fed c) (FED_FRZ_TOTAL_LO + 4)] s.dev d
    (∀ failed, (a.prod.isSome || !a.pipe.isEmpty) = true →
      (safeCause c s.dev = true → midSlice a = false → ∀ th, ∃ d, exec (.arrayCycle c th failed) s = .next { s with dev := d } ∧ frozen FED_FRZ_SAFE d) ∧
      (safeCause c s.dev = false → arrIdle c s.dev = false → (∀ x, a.prod = some x → x.swapped = true) → ∃ d,
        exec (.arrayCycle c true failed) s = .next { s with dev := d } ∧ frozen FED_FRZ_THROTTLE d)) ∧
    (∀ failed, safeCause c s.dev = false → arrIdle c s.dev = false → a.prod = none → a.tails = [] → ∃ d,
      exec (.arrayCycle c false failed) s = .next { s with dev := d } ∧ getArr c d = pipeAge (failed.foldl (fun a f => checkFail f a) a) ∧
      onlyCore c s.dev d) ∧
    (∀ f x, f < 2 → a.prod = some x → x.da.isSome = x.db.isSome → (getFeed x f).fault = false → (getFeed x f).held = false →
      (getFeed x f).buf.length < 32 → (getFeed x f).pass < passCount x.p → idle (.lmm c) s.dev = false → idle (.fed c) s.dev = false →
      s.dev.flaws = [] → ∃ d y, exec (.feederRead c f) s = .next { s with dev := d } ∧ (getArr c d).prod = some y ∧ y.p = x.p ∧
        (getFeed y f).buf = (getFeed x f).buf ∧ (∀ k, memRd d k = memRd s.dev k) ∧
        ((∃ sl, (getFeed y f).fly = (getFeed x f).fly ++ [sl] ∧ (getFeed x f).pass ≤ sl.pass ∧ (getFeed y f).pass = sl.pass ∧ (getFeed y f).t = sl.t + 1) ∨
         ((getFeed y f).fly = (getFeed x f).fly ∧ ((getFeed y f).pass = passCount x.p ∨
           ∃ g, g < 2 ∧ ((getFeed y g).fault = true ∨ (getFeed y g).held = true))))) ∧
    (∀ f x sl rest, a.prod = some x → (getFeed x f).fly = sl :: rest → (getFeed x f).buf.length < 32 → ∃ d,
      exec (.feederBankData c f) s = .next { s with dev := d } ∧ onlyCore c s.dev d ∧
      getArr c d = { a with prod := some (putFeed f { getFeed x f with fly := rest, buf := (getFeed x f).buf ++ [sl] } x) }) ∧
    (∀ x, a.prod = some x → x.swapped = false → x.cont = false → x.pass < passCount x.p → shadowReady a x = true → passRuns x x.pass = true →
      arrIdle c s.dev = false → ∃ d, exec (.swap c) s = .next { s with dev := d } ∧ onlyCore c s.dev d ∧
      (getArr c d).active = 1 - a.active ∧ (getArr c d).prod = some { x with swapped := true, loadAsked := false } ∧
      getSet (getArr c d) a.active = getSet a a.active ∧
      (x.p.start = true → getSet (getArr c d) (1 - a.active) = startSet (prodInt x.p) (getSet a (1 - a.active))) ∧
      (x.p.start = false → (getSet a (1 - a.active)).tag ≠ 0 → getSet (getArr c d) (1 - a.active) = getSet a (1 - a.active)))

/-- Drains, loads and dumps (R88, R97, R110, R128): a drain begins with what it will write, or is abandoned over a residue mismatch and the set is
quarantined; its bytes land at its place; a load leaves the shadow set with the values stored; a dump writes the set's RAW form. -/
def Obligations.ArrayTransfers : Prop :=
  ∀ (s : State) (c : CoreRef), coreOk c = true → isMatrix c = true → arrIdle c s.dev = false →
    let a := getArr c s.dev
    let ctx := coreCtx c s.dev
    (∀ j rest, a.drains = j :: rest → j.out = none → a.load.any (·.running) = false → a.dump.busy = false → 11 ≤ j.age → drainHeld c j s.dev = false →
      drWaits c j s.dev = false →
      (getSet a j.set).quar = false → idle (.lmm c) s.dev = false → j.stream < nStreams c →
      (failing a (getSet a j.set) = [] → ∃ d, exec (.drainStart c) s = .next { s with dev := d } ∧ (∀ k, memRd d k = memRd s.dev k) ∧
        getArr c d = { a with drains := { j with out := some ((drainEnv c j s.dev).bytes (getCore c s.dev)) } :: rest }) ∧
      (failing a (getSet a j.set) ≠ [] → (∀ r, (getJob j.job (getCore c s.dev)).map (·.work) ≠ some (.load r)) → ∃ d,
        exec (.drainStart c) s = .next { s with dev := d } ∧ faultValid (.arr c) d = true ∧ stopped c j.stream d = true ∧ stopCause c j.stream d = 5 ∧
        getArr c d = { modSet j.set (fun x => { x with quar := true }) a with drains := rest } ∧ ∀ k, memRd d k = memRd s.dev k)) ∧
    (∀ j rest bs, a.drains = j :: rest → j.out = some bs → idle (.lmm c) s.dev = false → drainHeld c j s.dev = false → j.dest + bs.length ≤ 2 ^ 23 →
      steady [.lmm c, flagBlk ctx] s.dev → ∃ d, exec (.drainComplete c) s = .next { s with dev := d } ∧ (getArr c d).drains = rest ∧
      (∀ i, i < bs.length → memRd d (keyLoc c (j.dest + i)) = (bs.getD i (0, false)).1) ∧
      memKeptFlag (keyLoc c j.dest) bs.length ctx (jobFlag (getCore c s.dev) j.job).2 s.dev d ∧
      (j.toAcc = false → j.dr.clear = true → getSet (getArr c d) j.set = emptySet (getSet a j.set))) ∧
    (∀ l, a.load = some l → l.running = false → a.dump.busy = false → idle (.lmm c) s.dev = false →
      a.drains.any (fun j => j.set == shadowNo a || j.out.isSome) = false → (getSet a (shadowNo a)).quar = false → ∃ d,
      exec (.loadStart c) s = .next { s with dev := d } ∧ getArr c d = { a with load := some { l with running := true } } ∧ onlyCore c s.dev d) ∧
    (∀ l, a.load = some l → l.running = true → idle (.lmm c) s.dev = false → s.dev.flaws = [] → ∃ d,
      exec (.loadComplete c) s = .next { s with dev := d } ∧
      getArr c d = { modSet (shadowNo a) (loadedSet l (keyLoc c l.addr) s.dev) a with load := none } ∧
      (l.fromAcc = true → ∀ k, memRd d k = memRd s.dev k) ∧ memKeptFlag 0 0 ctx (jobFlag (getCore c s.dev) l.job).2 s.dev d) ∧
    (∀ n rest k, a.dump.todo = n :: rest → gDev (dumpAddr a.dump.addr n) = ownDev s.dev → s.dev.flaws = [] →
      (∀ i, i < 98304 → gDev (dumpAddr a.dump.addr n + i) = ownDev s.dev ∧ spotOf ctx (dumpAddr a.dump.addr n + i) s.dev = .mem (k + i) ∧
        keyFailed (k + i) s.dev = false) →
      (∀ i m, i + m ≤ 98304 → windowHit (k + i) m s.dev = false ∧ portAnswer (corePos c) (.mem (k + i)) m s.dev = none) → ∃ d,
      exec (.dumpComplete c) s = .next { s with dev := d } ∧
      (∀ i, i < 98304 → memRd d (k + i) = ((rawBytes (getSet a n)).getD i (0, false)).1) ∧ memKept k 98304 s.dev d ∧
      (rest ≠ [] → getArr c d = { a with dump := { a.dump with todo := rest } }) ∧ (rest = [] → a.dump.later = [] → (getArr c d).dump = {}))

/-- The slots that name the array, taken from its queue when their dependences have cleared (R112, R163, R167, R173). -/
def Obligations.ArraySlots : Prop :=
  ∀ (s : State) (c : CoreRef) (j : Job), coreOk c = true → isMatrix c = true → arrayBusy c s.dev = false →
    headJob 0 (getCore c s.dev) = some j → depsClear j (getCore c s.dev) = true →
    let a := getArr c s.dev
    let started (d : Dev) : Prop := (getCore c d).jobs = (getCore c s.dev).jobs.map (fun k => if k.id = j.id then { k with phase := JobPhase.running } else k)
    (∀ p, j.work = .product p → readsConflict j (storeRegion p) = false → (continues a p = true → tagRefuses (activeSet a).tag p = false) → ∃ d x, exec (.productWord c) s = .next { s with dev := d } ∧ started d ∧ (getArr c d).prod = some x ∧ x.p = p ∧
      x.job = j.id ∧ x.pass = 0 ∧ x.cont = continues a p ∧ (getArr c d).fmtA = p.fmtA ∧ (getArr c d).fmtB = p.fmtB ∧ (getArr c d).quarter = p.quarter ∧
      (p.setA < 8 → p.setB < 8 → (∀ v, p.baseA = some v → rd (.fed c) (descOff 0 p.setA + D_BASE) d = v % 2 ^ 32) ∧
        ∀ v, p.baseB = some v → rd (.fed c) (descOff 1 p.setB + D_BASE) d = v % 2 ^ 32) ∧ ∀ k, memRd d k = memRd s.dev k) ∧
    (∀ r, j.work = .drain r → a.load = none →
      (drainRefused (shadowTag a) r.form = false → ∃ d x, exec (.standaloneDrain c) s = .next { s with dev := d } ∧ started d ∧
        (getArr c d).drains = a.drains ++ [x] ∧ x.dr = r ∧ x.dest = r.addr ∧ x.set = shadowNo a ∧ x.job = j.id ∧ onlyCore c s.dev d) ∧
      (drainRefused (shadowTag a) r.form = true → j.stream < nStreams c → ∃ d, exec (.standaloneDrain c) s = .next { s with dev := d } ∧
        faultValid (.seq c) d = true ∧ stopped c j.stream d = true ∧ stopCause c j.stream d = 1 ∧ (getArr c d).drains = a.drains)) ∧
    (∀ r, j.work = .load r → a.load = none → ∃ d, exec (.standaloneLoad c) s = .next { s with dev := d } ∧ started d ∧ onlyCore c s.dev d ∧
      (getArr c d).load = some ⟨r.form, r.addr, false, false, false, j.id, j.stream, false⟩)

/-- Releases and dumps asked for through ARR_QUAR (R110), an advance of a scale tracker (R136), and the lane generators' seed and free-running
advance (R142, R143). -/
def Obligations.ArrayRequests : Prop :=
  ∀ (s : State) (org : Org) (c : CoreRef) (val : Nat), val < 2 ^ 32 → coreOk c = true →
    let a := getArr c s.dev
    (isMatrix c = true → bits val 10 2 = 0 → a.dump.busy = false →
      let w := val ||| (if bits val 8 2 = 0 then 0x100 else 0)
      writable org (.arr c) ARR_QUAR w s.dev → ∃ d, exec (.arrRelease org c val) s = .next { s with dev := d } ∧
        getArr c d = { a with set0 := if bit w 8 && a.set0.quar then {} else a.set0, set1 := if bit w 9 && a.set1.quar then {} else a.set1 } ∧
        onlyLogged [] { s.dev with cores := d.cores } d) ∧
    (isMatrix c = true → bits val 8 2 = 0 →
      let w := val ||| (if bits val 10 2 = 0 then 0x400 else 0)
      let sets := (if bit w 10 then [0] else []) ++ (if bit w 11 then [1] else [])
      let base := rd64 (.arr c) ARR_QDUMP_LO s.dev
      writable org (.arr c) ARR_QUAR w s.dev →
      (sets.all (fun n => dumpOk c (dumpAddr base n) s.dev) = true → ∃ d, exec (.arrDump org c val) s = .next { s with dev := d } ∧
        getArr c d = { a with dump := if a.dump.busy then { a.dump with later := a.dump.later ++ [(sets, base, [])] }
          else { todo := sets, busy := true, addr := base } } ∧
        onlyLogged [] { s.dev with cores := d.cores } d) ∧
      (sets.all (fun n => dumpOk c (dumpAddr base n) s.dev) = false → a.dump.busy = false → ∃ d,
        exec (.arrDump org c val) s = .next { s with dev := d } ∧
        faultValid (.arr c) d = true ∧ onlyLogged [regKey (.arr c) R_FAULT] s.dev d)) ∧
    (isMatrix c = true → writable org (.sct c) SCT_ADVANCE (val ||| 0x80000000) s.dev →
      let n := bits val 0 6
      let head := (bits (rdKey s.dev (sctCfg c n)) 16 4 + 1) % 16
      let cur := rdKey s.dev (sctCur c n)
      ∃ d, exec (.sctAdvance org c val) s = .next { s with dev := d } ∧ rdKey d (sctCur c n) = 0 ∧ rdKey d (sctHist c n head) = cur ∧
        rdKey d (sctCfg c n) = advanceCfg (putBits (rdKey s.dev (sctCfg c n)) 16 4 head)
          ((List.range 16).map fun i => if i = head then cur else rdKey s.dev (sctHist c n i)) ∧
        onlyLogged [sctCfg c n, sctCur c n, sctHist c n head] s.dev d) ∧
    (isMatrix c = true → writable org (.vec c) VEC_RNG_SEED_HI val s.dev → ∃ d, exec (.rngSeed org c val) s = .next { s with dev := d } ∧
      getCore c d = { getCore c s.dev with seed := some (rd (.vec c) VEC_RNG_SEED_LO s.dev + val * 2 ^ 32), ctrAll := 0, ctr := [] } ∧
      onlyLogged [regKey (.vec c) VEC_RNG_SEED_HI] { s.dev with cores := d.cores } d) ∧
    (isVector c = true → writable org (.seq c) VCR_RNG_SEED_HI val s.dev → ∃ d, exec (.rngSeed org c val) s = .next { s with dev := d } ∧
      getCore c d = { getCore c s.dev with seed := some (rd (.seq c) VCR_RNG_SEED_LO s.dev + val * 2 ^ 32), ctrAll := 0, ctr := [] } ∧
      onlyLogged [regKey (.seq c) VCR_RNG_SEED_HI] { s.dev with cores := d.cores } d) ∧
    (freeRunning c s.dev = true → ∃ d, exec (.freeRunningAdvance c) s = .next { s with dev := d } ∧
      getCore c d = { getCore c s.dev with ctrAll := ((getCore c s.dev).ctrAll + 1) % 2 ^ 64 } ∧ onlyCore c s.dev d)

/-! ### The lanes (R142 to R144, R168, R169, R345 to R347, R523) -/

/-- A VX slot may execute: it heads its queue, no earlier slot's region conflicts, its operands lie in local memory and none is poisoned. -/
def Sys2Proof.Machine.vxReady (c : CoreRef) (j : Job) (d : Dev) : Prop :=
  coreOk c = true ∧ headJob 1 (getCore c d) = some j ∧ depsClear j (getCore c d) = true ∧ lanesHeld c d = false ∧ idle (.lmm c) d = false ∧
  (getCore c d).jobs.any (fun k => unitOf k.work == 1 && decide (k.phase = .running)) = false ∧
  ∀ op fmt rnd dst src1 src2 rows, j.work = .vx op fmt rnd dst src1 src2 rows → rangesIn c (vxRanges c op fmt dst src1 src2 rows d) = true ∧
    rangesPoison c (vxRanges c op fmt dst src1 src2 rows d) d = none

/-- The elementwise operations (R168, R169): every lane of every row takes the operation's result; nothing else in memory changes, no register
does, and the slot is done. -/
def Obligations.VectorLanes : Prop :=
  ∀ (s : State) (c : CoreRef) (j : Job) (op fmt rnd dst src1 src2 rows : Nat) (i : Instr), vxReady c j s.dev → steady [.lmm c] s.dev →
    j.work = .vx op fmt rnd dst src1 src2 rows →
    (op, i) ∈ [(0x01, Instr.vxAdd c), (0x02, .vxSub c), (0x03, .vxMul c), (0x04, .vxFma c), (0x05, .vxMax c), (0x06, .vxMin c), (0x10, .vxExp c),
      (0x11, .vxLog c), (0x12, .vxRsqrt c), (0x13, .vxTanh c)] →
    ∃ d, exec i s = .next { s with dev := d } ∧ onlyLocal c s.dev d ∧ memKept (keyLoc c dst) (rows * (4 * nLanes c)) s.dev d ∧
      getCore c d = modJob j.id (fun k => { k with phase := .done }) (getCore c s.dev) ∧
      ∀ r l, r < rows → l < nLanes c →
        vxIn c dst r l d = vxLane op (vxIn c src1 r l s.dev) (vxIn c src2 r l s.dev) (vxIn c dst r l s.dev) % 2 ^ 32

/-- RSUM and RMAX leave one result a row, folded by the binary tree of neighbours; CVT converts the unmasked lanes to the target's width and keeps the
others; RNG draws for the unmasked lanes, whose counters move on (R142 to R144, R168, R169). DISPATCH (R345 to R347): counts and losses of each
expert, its list and the tokens' return entries stand in the table; with parameters that R345 does not allow the word is illegal and its stream
stops. A slot whose range leaves local memory is an address fault (R523), whatever it does. -/
def Obligations.VectorRows : Prop :=
  (∀ (s : State) (c : CoreRef) (j : Job) (fmt rnd dst src1 src2 rows : Nat), vxReady c j s.dev → steady [.lmm c] s.dev →
    let x := getCore c s.dev
    let ready (op : Nat) : Prop := j.work = .vx op fmt rnd dst src1 src2 rows
    let done (d : Dev) : Prop := getCore c d = modJob j.id (fun k => { k with phase := .done }) x
    let taken (l : Nat) : Nat := ((List.range rows).filter fun q => vxBit c src2 q l s.dev).length
    let drawn (d : Dev) : Prop :=
      (getCore c d).jobs = (modJob j.id (fun k => { k with phase := .done }) x).jobs ∧ (getCore c d).seed = x.seed ∧
      (∀ l, l < nLanes c → laneCtr (getCore c d) l = if freeRunning c s.dev then laneCtr x l else (laneCtr x l + taken l) % 2 ^ 64) ∧
      (∀ b o, (b, o) = (if isMatrix c then (Blk.vec c, VEC_DRAWS_LO) else (Blk.seq c, VCR_DRAWS_LO)) →
        rd64 b o d = (rd64 b o s.dev + ((List.range (nLanes c)).map taken).sum) % 2 ^ 64 ∧ regsKept [regKey b o, regKey b (o + 4)] s.dev d)
    let row (r : Nat) : List Nat := (List.range (nLanes c)).map fun l => vxIn c src1 r l s.dev
    (ready 0x08 → ∃ d, exec (.vxRsum c) s = .next { s with dev := d } ∧ onlyLocal c s.dev d ∧ done d ∧ memKept (keyLoc c dst) (4 * rows) s.dev d ∧
      ∀ r, r < rows → lmNat c (dst + 4 * r) 4 d = treeFold fAdd 10 (row r) % 2 ^ 32) ∧
    (ready 0x09 → ∃ d, exec (.vxRmax c) s = .next { s with dev := d } ∧ onlyLocal c s.dev d ∧ done d ∧ memKept (keyLoc c dst) (4 * rows) s.dev d ∧
      ∀ r, r < rows → lmNat c (dst + 4 * r) 4 d = treeFold fMax 10 (row r) % 2 ^ 32) ∧
    (ready 0x07 →
      let w := cvtBits fmt
      let elem (r l : Nat) (d : Dev) : Nat :=
        bits (lmNat c (dst + r * (nLanes c * w / 8) + l * w / 8) (if w = 16 then 2 else 1) d) (if w = 4 then 4 * (l % 2) else 0) w
      ∃ d, exec (.vxCvt c) s = .next { s with dev := d } ∧ memKept (keyLoc c dst) (rows * (nLanes c * w / 8)) s.dev d ∧
        (rnd ≠ 1 → onlyLocal c s.dev d ∧ done d) ∧ (rnd = 1 → drawn d) ∧
        ∀ r l, r < rows → l < nLanes c →
          elem r l d = if vxBit c src2 r l s.dev then cvtCode c fmt (rnd == 1) src1 src2 r l s.dev % 2 ^ w else elem r l s.dev) ∧
    (ready 0x0A → ∃ d, exec (.vxRng c) s = .next { s with dev := d } ∧ drawn d ∧ memKept (keyLoc c dst) (rows * (4 * nLanes c)) s.dev d ∧
      ∀ r l, r < rows → l < nLanes c → vxIn c dst r l d =
        if vxBit c src2 r l s.dev then draw x l (drawsBefore c src2 r l s.dev) % 2 ^ 32 else vxIn c dst r l s.dev)) ∧
  (∀ (s : State) (c : CoreRef) (j : Job) (fmt rnd dst src1 src2 rows : Nat), vxReady c j s.dev → steady [.lmm c] s.dev →
    j.work = .vx 0x20 fmt rnd dst src1 src2 rows →
    let p := dispParam c src2 rows s.dev
    let t := dispRun p fun t r => lmNat c (src1 + 2 * (p.kr * t + r)) 2 s.dev
    let lists := dst + 8 * p.experts
    (p.ok = true → ∃ d, exec (.dispatch c) s = .next { s with dev := d } ∧ onlyLocal c s.dev d ∧ memKept (keyLoc c dst) (dispDstLen p) s.dev d ∧
      getCore c d = modJob j.id (fun k => { k with phase := .done }) (getCore c s.dev) ∧
      (∀ e, e < p.experts → lmNat c (dst + 8 * e) 8 d = (t.cnt e + (t.lost[e]?).getD 0 * 2 ^ 32) % 2 ^ 64) ∧
      (∀ e n v, (e, n, v) ∈ t.lists → lmNat c (lists + 4 * (p.cap * e + n)) 4 d = v % 2 ^ 32) ∧
      ∀ n v, (n, v) ∈ t.rets → lmNat c (lists + 4 * p.cap * p.experts + 4 * n) 4 d = v % 2 ^ 32) ∧
    (p.ok = false → j.stream < nStreams c → ∃ d, exec (.dispatch c) s = .next { s with dev := d } ∧ faultValid (.seq c) d = true ∧
      stopped c j.stream d = true ∧ stopCause c j.stream d = 1 ∧ ∀ k, memRd d k = memRd s.dev k)) ∧
  (∀ (s : State) (c : CoreRef) (j : Job) (op fmt rnd dst src1 src2 rows : Nat) (i : Instr),
    let x := getCore c s.dev
    coreOk c = true → headJob 1 x = some j → getJob j.id x = some j → depsClear j x = true → lanesHeld c s.dev = false → idle (.lmm c) s.dev = false →
    x.jobs.any (fun k => unitOf k.work == 1 && decide (k.phase = .running)) = false → j.work = .vx op fmt rnd dst src1 src2 rows →
    (op, i) ∈ [(0x01, Instr.vxAdd c), (0x02, .vxSub c), (0x03, .vxMul c), (0x04, .vxFma c), (0x05, .vxMax c), (0x06, .vxMin c), (0x07, .vxCvt c),
      (0x08, .vxRsum c), (0x09, .vxRmax c), (0x0A, .vxRng c), (0x10, .vxExp c), (0x11, .vxLog c), (0x12, .vxRsqrt c), (0x13, .vxTanh c), (0x20, .dispatch c)] →
    paramBad c op src2 s.dev = false → rangesIn c (vxRanges c op fmt dst src1 src2 rows s.dev) = false → j.stream < nStreams c →
    ∃ d, exec i s = .next { s with dev := d } ∧ faultValid (.seq c) d = true ∧
      (faultValid (.seq c) s.dev = false → rdF (.seq c) R_FAULT 0 16 d = cAddressFault) ∧ stopped c j.stream d = true ∧ stopCause c j.stream d = 4 ∧
      d.mem = s.dev.mem)

/-! ### The sequencer (R151 to R192, R243) -/

/-- A stream of a core. -/
def Sys2Proof.Machine.hasStream (c : CoreRef) (st : Nat) (d : Dev) : Prop := coreOk c = true ∧ st < nStreams c ∧ st < (getCore c d).streams.length

/-- ENABLE reads the tail word, or stops the stream over a misplaced ring or tail word (R155, R190); RESUME lifts every stop but the one for a misplaced
ring or tail word and that of the safe state (R184, R185, R191; which other stops it lifts is the model's reading, log entry 44); a write of BASE_HI starts the ring at 0 (R190); a write of the watched tail word moves TAIL, and one out of range is
refused (R155, R158). -/
def Obligations.StreamControl : Prop :=
  ∀ (s : State) (org : Org) (c : CoreRef) (st val : Nat), val < 2 ^ 32 → hasStream c st s.dev →
    let ctl := sOff st S_CTL
    let tk := tailKey c st s.dev
    let told := memNat tk 8 s.dev
    let placed := baseOk c st s.dev && tailOk c st s.dev
    let readable : Prop := isSafe (keyBlk tk s.dev) s.dev = false ∧ s.dev.flaws = [] ∧ anyPoison tk 8 s.dev = false
    let fits := decide (0 ≤ diff64 told (sTail c st s.dev)) && decide (diff64 told (sHead c st s.dev) ≤ (ringBytes c st s.dev : Int))
    let tailKeys := [regKey (.seq c) (sOff st S_TAIL_LO), regKey (.seq c) (sOff st S_TAIL_LO + 4), regKey (keyBlk tk s.dev) NSC_RD_LO,
      regKey (keyBlk tk s.dev) (NSC_RD_LO + 4)]
    (writable org (.seq c) ctl (val ||| 1) s.dev → bit val 1 = false → streamOn c st s.dev = false →
      (placed = true → readable → fits = true → ∃ d, exec (.streamEnable org c st val) s = .next { s with dev := d } ∧ streamOn c st d = true ∧
        sTail c st d = told ∧ (getStream c st d).lines = [] ∧ (stopped c st d = (stopped c st s.dev && !(getStream c st s.dev).misplaced)) ∧
        regsKept (regKey (.seq c) ctl :: tailKeys ++ logKeys) s.dev d ∧ ∀ k, memRd d k = memRd s.dev k) ∧
      (placed = false → ∃ d, exec (.streamEnable org c st val) s = .next { s with dev := d } ∧ streamOn c st d = true ∧ stopped c st d = true ∧
        stopCause c st d = 4 ∧ faultValid (.seq c) d = true ∧ onlyLogged [regKey (.seq c) ctl, regKey (.seq c) R_FAULT] { s.dev with cores := d.cores } d)) ∧
    (writable org (.seq c) ctl (val ||| 2) s.dev → (bit val 0 = true → streamOn c st s.dev = true) → ∃ d,
      exec (.streamResume org c st val) s = .next { s with dev := d } ∧ onlyLogged [regKey (.seq c) ctl] { s.dev with cores := d.cores } d ∧
      (stopped c st d = (stopped c st s.dev && (stopCause c st s.dev == 6 || (getStream c st s.dev).misplaced))) ∧
      (stopped c st s.dev = true → stopCause c st s.dev = 2 → (getStream c st s.dev).misplaced = false → (getStream c st d).breakPass = true) ∧
      (stopped c st s.dev = true → stopCause c st s.dev = 1 → (getStream c st s.dev).misplaced = false → (getStream c st d).lines = [])) ∧
    (writable org (.seq c) (sOff st S_BASE_HI) val s.dev → ∃ d, exec (.streamBaseWrite org c st val) s = .next { s with dev := d } ∧
      rd (.seq c) (sOff st S_BASE_HI) d = val ∧ sHead c st d = 0 ∧ sTail c st d = 0 ∧ rd64 (.seq c) (sOff st S_COUNT_LO) d = 0 ∧
      (getStream c st d).lines = [] ∧ (∀ k, memRd d k = memRd s.dev k) ∧
      (streamOn c st s.dev = true → (baseOk c st d && tailOk c st d) = false → stopped c st d = true ∧ stopCause c st d = 4 ∧ faultValid (.seq c) d = true) ∧
      ((baseOk c st d && tailOk c st d) = true → stopped c st d = stopped c st s.dev)) ∧
    (streamOn c st s.dev = true → placed = true → readable →
      (fits = true → ∃ d, exec (.tailWrite c st) s = .next { s with dev := d } ∧ sTail c st d = told ∧ onlyRegs tailKeys s.dev d) ∧
      (fits = false → ∃ d, exec (.tailWrite c st) s = .next { s with dev := d } ∧ stopped c st d = true ∧ stopCause c st d = 1 ∧
        sTail c st d = sTail c st s.dev ∧ faultValid (.seq c) d = true ∧
        (faultValid (.seq c) s.dev = false → rd (.seq c) SEQ_ILL d = 10 + st * 256 + 15 * 4096) ∧ ∀ k, memRd d k = memRd s.dev k))

/-- Lines are fetched from the ring (R151, R154); the word at HEAD is refused, breaks or waits as it is examined, or starts when its turn has come
(R162, R175, R177, R184, R185): COUNT, HEAD and the queues move on by it. SC and SY act as R171 and R177 say, here in words of their own. -/
def Obligations.WordIssue : Prop :=
  ∀ (s : State) (c : CoreRef) (st : Nat), hasStream c st s.dev → s.dev.flaws = [] →
    let x := getCore c s.dev
    let stops (cause code : Nat) (d : Dev) : Prop := stopped c st d = true ∧ stopCause c st d = cause ∧ faultValid (.seq c) d = true ∧
      (faultValid (.seq c) s.dev = false → rdF (.seq c) R_FAULT 0 16 d = code) ∧ sHead c st d = sHead c st s.dev ∧ getCore c d = x ∧
      ∀ k, memRd d k = memRd s.dev k
    (∀ n, streamOn c st s.dev = true → stopped c st s.dev = false → baseOk c st s.dev = true → nextLine c st s.dev = some n →
      let old := lineOf (getStream c st s.dev) n
      let k := ringKey c st (64 * n) s.dev + old.length
      let len := lineLimit c st n s.dev - old.length
      isSafe (keyBlk k s.dev) s.dev = false → ∃ d, exec (.wordFetch c st) s = .next { s with dev := d } ∧
        lineOf (getStream c st d) n = old ++ (memBytes k len s.dev).zip (poisonBytes k len s.dev) ∧ (∀ k, memRd d k = memRd s.dev k) ∧
        sHead c st d = sHead c st s.dev ∧ ((poisonBytes k len s.dev).any id = true → faultValid (.lmm c) d = true)) ∧
    (∀ cause slot, cause < 16 → slot < 16 → examine c st s.dev = .refuse cause slot → ∃ d, exec (.wordStart c st) s = .next { s with dev := d } ∧
      stops 1 cIllegalWord d ∧ (faultValid (.seq c) s.dev = false → rd (.seq c) SEQ_ILL d = cause + st * 256 + slot * 4096)) ∧
    (∀ kind, kind < 2 → examine c st s.dev = .break_ kind → ∃ d, exec (.wordStart c st) s = .next { s with dev := d } ∧ stops 2 cBreakHit d ∧
      (faultValid (.seq c) s.dev = false → rd (.seq c) SEQ_BRK_STAT d = st + 16 * kind)) ∧
    (∀ f t, examine c st s.dev = .wait f t → ∃ d, exec (.wordStart c st) s = .next { s with dev := d } ∧
      (getStream c st d).wait = some ⟨f, t, flagVal (coreCtx c s.dev) f s.dev, false⟩ ∧ (∀ k, memRd d k = memRd s.dev k) ∧
      sHead c st d = sHead c st s.dev) ∧
    (examine c st s.dev = .full → (getStream c st s.dev).sbFull = false → ∃ d, exec (.scoreboardFull c st) s = .next { s with dev := d } ∧
      faultValid (.seq c) d = true ∧ rdF (.seq c) SEQ_SB_STAT 16 4 d = st % 16 ∧ (getStream c st d).sbFull = true ∧
      onlyRegs [regKey (.seq c) R_FAULT, regKey (.seq c) SEQ_SB_STAT] { s.dev with cores := d.cores } d) ∧
    (∀ w len, examine c st s.dev = .ready w len → roundRobin c s.dev = some st →
      let pos := sHead c st s.dev
      let begun (d : Dev) : Prop := rd64 (.seq c) (sOff st S_COUNT_LO) d = (rd64 (.seq c) (sOff st S_COUNT_LO) s.dev + 1) % 2 ^ 64 ∧
        sTail c st d = sTail c st s.dev ∧ (getCore c d).nextWord = x.nextWord + 1 ∧ (getCore c d).last = st
      (slotOf w 6 = none → slotOf w 7 = none → ∃ d, exec (.wordStart c st) s = .next { s with dev := d } ∧ begun d ∧
        sHead c st d = (pos + len) % 2 ^ 64 ∧ (∀ k, memRd d k = memRd s.dev k) ∧
        (getCore c d).jobs = x.jobs ++ (wordWorks c st w s.dev).zipIdx.map (fun p =>
          { id := x.nextJob + p.2, word := x.nextWord, stream := st, slot := p.1.1, work := p.1.2, regions := regionsOf c w p.1.2 s.dev })) ∧
      (∀ v, w.slots = [(7, v)] → 4 ≤ bits v 0 4 → bits v 0 4 ≤ 9 →
        let r := bits v 4 4
        let old := sreg c st r s.dev
        let off : Int := signed 24 (bits v 8 24)
        let jump := wrap 64 (pos + 4 * off)
        ∃ d, exec (.wordStart c st) s = .next { s with dev := d } ∧ begun d ∧ (∀ k, memRd d k = memRd s.dev k) ∧ (getCore c d).jobs = x.jobs ∧
          (∀ q, q ≠ r → sreg c st q d = sreg c st q s.dev) ∧
          (bits v 0 4 = 4 → sreg c st r d = bits v 8 24) ∧ (bits v 0 4 = 5 → sreg c st r d = wrap 64 (old + off)) ∧
          (bits v 0 4 = 6 → sreg c st r d = scAlu (bits v 12 4) old (sreg c st (bits v 8 4) s.dev) % 2 ^ 64) ∧
          (bits v 0 4 = 7 → sreg c st r d = old - 1 ∧ sHead c st d = if old = 0 then (pos + len) % 2 ^ 64 else jump) ∧
          (bits v 0 4 = 8 → sHead c st d = jump) ∧ (bits v 0 4 = 9 → sHead c st d = if old = 0 then jump else (pos + len) % 2 ^ 64) ∧
          (bits v 0 4 ≤ 6 → sHead c st d = (pos + len) % 2 ^ 64) ∧ (8 ≤ bits v 0 4 → sreg c st r d = old)) ∧
      (∀ v, w.slots = [(6, v)] → bits v 0 3 = 2 → flagOpen (coreCtx c s.dev) (bits v 3 14) s.dev = true →
        rdBit (flagBlk (coreCtx c s.dev)) ECC_INJ 3 s.dev = false → ∃ d, exec (.wordStart c st) s = .next { s with dev := d } ∧ begun d ∧
        flagVal (coreCtx c s.dev) (bits v 3 14) d = (flagVal (coreCtx c s.dev) (bits v 3 14) s.dev + bits v 21 11 + 1) % 2 ^ 64 ∧
        memKeptFlag 0 0 (coreCtx c s.dev) (bits v 3 14) s.dev d ∧ sHead c st d = (pos + len) % 2 ^ 64) ∧
      (∀ v, w.slots = [(7, v)] → bits v 0 4 = 2 ∨ bits v 0 4 = 3 →
        let wk : Work := if bits v 0 4 = 2 then .ld (bits v 4 4) (8 * bits v 8 20) else .st (bits v 4 4) (8 * bits v 8 20)
        ∃ d, exec (.wordStart c st) s = .next { s with dev := d } ∧ begun d ∧ (∀ k, memRd d k = memRd s.dev k) ∧ sHead c st d = (pos + len) % 2 ^ 64 ∧
          (getCore c d).jobs = x.jobs ++
            [{ id := x.nextJob, word := x.nextWord, stream := st, slot := 7, work := wk, regions := regionsOf c w wk s.dev }]) ∧
      (∀ v, w.slots = [(6, v)] →
        let upd : SyUpd := { word := x.nextWord, stream := st, flag := bits v 3 14, inc := bits v 21 11 + 1,
                             remote := if bits v 0 3 = 5 then some (bits v 17 4) else none, done := true }
        let dst := sreg c st (bits v 17 4) s.dev % 32768
        let a := gAddr dst 4 (coreCtx c s.dev * 0x20000 + 8 * bits v 3 14)
        let flow := controlFlow c dst s.dev
        (bits v 0 3 = 3 ∨ bits v 0 3 = 5 → ∃ d, exec (.wordStart c st) s = .next { s with dev := d } ∧ begun d ∧ (∀ k, memRd d k = memRd s.dev k) ∧
          sHead c st d = (pos + len) % 2 ^ 64 ∧ (getCore c d).upds = x.upds ++ [upd]) ∧
        (bits v 0 3 = 6 → ∃ d, exec (.wordStart c st) s = .next { s with dev := d } ∧ begun d ∧ (∀ k, memRd d k = memRd s.dev k) ∧
          sHead c st d = (pos + len) % 2 ^ 64 ∧ (getStream c st d).seam = true) ∧
        (bits v 0 3 = 4 → addrOk a s.dev = true → gDev a = dst → (dst ≠ ownDev s.dev → flow ≠ none) → canSend flow a 8 s.dev → ∃ d,
          exec (.wordStart c st) s = .next { s with dev := d } ∧ begun d ∧ (∀ k, memRd d k = memRd s.dev k) ∧ sHead c st d = (pos + len) % 2 ^ 64 ∧
          sentReq (.sync c st x.nextWord 6) .flagAdd a (toBytes 8 (bits v 21 11 + 1)) s.dev d)))

/-- The SC slot's load and store (R171, R523), the updates that wait for their word (R177, R243), completion (R172), notices (R178) and the timeout
of a wait (R179). -/
def Obligations.ScAndFlags : Prop :=
  ∀ (s : State) (c : CoreRef) (st : Nat), hasStream c st s.dev →
    let x := getCore c s.dev
    let ctx := coreCtx c s.dev
    let doneJob (j : Job) : CoreSt := modJob j.id (fun k => { k with phase := .done }) x
    (∀ j r a, scJob c st s.dev = some j → idle (.lmm c) s.dev = false → x.upds.all (fun u => !(u.stream == st && !u.done)) = true →
      (j.work = .ld r a → a + 8 ≤ lmSize c → s.dev.flaws = [] → anyPoison (keyLoc c a) 8 s.dev = false → ∃ d,
        exec (.scLd c st) s = .next { s with dev := d } ∧ sreg c st r d = lmNat c a 8 s.dev ∧ getCore c d = doneJob j ∧
        onlyRegs [bankKey (.seq c) (sOff st S_SREG_LO) r, bankKey (.seq c) (sOff st S_SREG_LO + 4) r] { s.dev with cores := d.cores } d) ∧
      (j.work = .st r a → a + 8 ≤ lmSize c → steady [.lmm c] s.dev → ∃ d, exec (.scSt c st) s = .next { s with dev := d } ∧
        lmNat c a 8 d = sreg c st r s.dev % 2 ^ 64 ∧ getCore c d = doneJob j ∧ memKept (keyLoc c a) 8 s.dev d ∧ onlyLocal c s.dev d) ∧
      (∀ i, (i, j.work) ∈ [(Instr.scLd c st, Work.ld r a), (.scSt c st, .st r a)] → lmSize c < a + 8 → getJob j.id x = some j → j.stream = st →
        ∃ d, exec i s = .next { s with dev := d } ∧ stopped c st d = true ∧ stopCause c st d = 4 ∧ faultValid (.seq c) d = true ∧
          ∀ k, memRd d k = memRd s.dev k)) ∧
    (∀ u, dueUpdate c st false s.dev = some u →
      (u.withheld = true → ∃ d, exec (.syIncDone c st) s = .next { s with dev := d } ∧ getCore c d = { x with upds := x.upds.erase u } ∧ onlyCore c s.dev d) ∧
      (u.withheld = false → steady [flagBlk ctx] s.dev → flagOpen ctx u.flag s.dev = true → ∃ d, exec (.syIncDone c st) s = .next { s with dev := d } ∧
        flagVal ctx u.flag d = (flagVal ctx u.flag s.dev + u.inc) % 2 ^ 64 ∧ (getCore c d).upds = x.upds.erase u ∧ memKeptFlag 0 0 ctx u.flag s.dev d)) ∧
    (∀ u r, dueUpdate c st true s.dev = some u → u.remote = some r →
      let dst := sreg c u.stream r s.dev % 32768
      let a := gAddr dst 4 (ctx * 0x20000 + 8 * u.flag)
      let flow := controlFlow c dst s.dev
      (u.withheld = true → ∃ d, exec (.syIncRemoteDone c st) s = .next { s with dev := d } ∧ getCore c d = { x with upds := x.upds.erase u } ∧ onlyCore c s.dev d) ∧
      (u.withheld = false → addrOk a s.dev = true → gDev a = dst → (dst ≠ ownDev s.dev → flow ≠ none) → canSend flow a 8 s.dev → ∃ d,
        exec (.syIncRemoteDone c st) s = .next { s with dev := d } ∧ sentReq (.sync c u.stream u.word 6) .flagAdd a (toBytes 8 u.inc) s.dev d ∧
        (getCore c d).upds = x.upds.erase u ∧ ∀ k, memRd d k = memRd s.dev k) ∧
      (u.withheld = false → u.stream = st → (addrOk a s.dev = false ∨ (dst ≠ ownDev s.dev ∧ flow = none)) → ∃ d,
        exec (.syIncRemoteDone c st) s = .next { s with dev := d } ∧ stopped c st d = true ∧ stopCause c st d = 4 ∧ faultValid (.seq c) d = true ∧
        d.net = s.dev.net ∧ ∀ k, memRd d k = memRd s.dev k)) ∧
    (∀ job, ∃ d, exec (.slotComplete c job) s = .next { s with dev := d } ∧ onlyCore c s.dev d ∧
      getCore c d = { x with jobs := x.jobs.filter fun j => !(j.id == job && decide (j.phase = .done)) }) ∧
    (∀ f rest, x.notices = f :: rest → s.dev.flaws = [] → ∃ d, exec (.flagNotice c) s = .next { s with dev := d } ∧ (getCore c d).notices = rest ∧
      (∀ k, memRd d k = memRd s.dev k) ∧ ∀ w, (getStream c st s.dev).wait = some w → (getStream c st d).wait = some (if w.flag = f then
        { w with value := flagVal ctx f s.dev, ready := w.ready || flagReached ctx f w.target s.dev } else w)) ∧
    (∀ w, (getStream c st s.dev).wait = some w → w.ready = false → w.flag < stitchFlag → w.target < 2 ^ 64 → w.value < 2 ^ 64 →
      framed ctx s.dev = true → stopped c st s.dev = false → ∃ d, exec (.flagWaitTimeout c st) s = .next { s with dev := d } ∧
      stopped c st d = true ∧ stopCause c st d = 3 ∧ faultValid (.seq c) d = true ∧ (faultValid (.seq c) s.dev = false →
        rd (.seq c) SEQ_TMO d = st + w.flag * 16 ∧ rd64 (.seq c) SEQ_TMO_TGT_LO d = w.target ∧ rd64 (.seq c) SEQ_TMO_VAL_LO d = w.value) ∧
      (getStream c st d).wait = some w ∧ (getStream c st d).timedOut = true ∧ onlyCore c { s.dev with regs := d.regs } d)

/-- The tack unit and the transposing buffers (R134, R170, R234, R245, R523). -/
def Obligations.TackAndTiles : Prop :=
  ∀ (s : State) (c : CoreRef) (j : Job), coreOk c = true → s.dev.flaws = [] → getJob j.id (getCore c s.dev) = some j → j.stream < nStreams c →
    let x := getCore c s.dev
    let refused (d : Dev) : Prop := stopped c j.stream d = true ∧ stopCause c j.stream d = 4 ∧ faultValid (.seq c) d = true ∧
      d.net = s.dev.net ∧ ∀ k, memRd d k = memRd s.dev k
    let running (d : Dev) : Prop := getCore c d = modJob j.id (fun k => { k with phase := .running }) x
    (∀ a loc len fe nt f, tackHead c s.dev = some j → j.work = .tackPut a loc len fe nt f →
      let far := nt && gDev a != ownDev s.dev
      let flow := controlFlow c (gDev a) s.dev
      (tackOk c far a loc len s.dev = true → 0 < len → canSend flow a len s.dev → ∃ d, exec (.tackPut c) s = .next { s with dev := d } ∧
        getCore c d = freeReads j.id (modJob j.id (fun k => { k with phase := .running }) x) ∧
        sentReq (.tack c j.id) (if far then .putNotify else .put) a (memBytes (keyLoc c loc) len s.dev) s.dev d ∧ ∀ k, memRd d k = memRd s.dev k) ∧
      (tackOk c far a loc len s.dev = false → ∃ d, exec (.tackPut c) s = .next { s with dev := d } ∧ refused d)) ∧
    (∀ a loc len fe f, tackHead c s.dev = some j → j.work = .tackGet a loc len fe f →
      let flow := controlFlow c (gDev a) s.dev
      (tackOk c false a loc len s.dev = true → 0 < len → canSend flow a len s.dev → ∃ d, exec (.tackGet c) s = .next { s with dev := d } ∧ running d ∧
        sentReq (.tack c j.id) .get a [] s.dev d ∧ ∀ k, memRd d k = memRd s.dev k) ∧
      (tackOk c false a loc len s.dev = false → ∃ d, exec (.tackGet c) s = .next { s with dev := d } ∧ refused d)) ∧
    (∀ b rows cols src dst sp dp fe f, b < 2 → j.work = .transpose b rows cols src dst sp dp fe f → idle (.txb c) s.dev = false → idle (.lmm c) s.dev = false →
      (headJob (3 + b) x = some j → headJob (4 - b) x = none → depsClear j x = true →
        x.jobs.any (fun k => unitOf k.work == 3 + b && decide (k.phase = .running)) = false →
        (rangesIn c (txRanges rows cols src dst sp dp) = true → ∃ d, exec (.mvTranspose c) s = .next { s with dev := d } ∧ running d ∧ onlyCore c s.dev d) ∧
        (rangesIn c (txRanges rows cols src dst sp dp) = false → ∃ d, exec (.mvTranspose c) s = .next { s with dev := d } ∧ refused d)) ∧
      ((x.jobs.find? fun k => unitOf k.work == 3 + b && decide (k.phase = .running)) = some j → rangesIn c (txRanges rows cols src dst sp dp) = true →
        2 * rows ≤ dp → 0 < cols → steady [.lmm c, flagBlk (coreCtx c s.dev)] s.dev → ∃ d, exec (.transposeTileComplete c b) s = .next { s with dev := d } ∧
        (∀ i k, i < rows → k < cols → lmNat c (dst + k * dp + 2 * i) 2 d = lmNat c (src + i * sp + 2 * k) 2 s.dev) ∧
        (∀ a, (∀ k, k < cols → ¬ (keyLoc c (dst + k * dp) ≤ a ∧ a < keyLoc c (dst + k * dp) + 2 * rows)) →
          ¬ (fe = true ∧ flagKey (coreCtx c s.dev) f ≤ a ∧ a < flagKey (coreCtx c s.dev) f + 8) → memRd d a = memRd s.dev a) ∧
        rd (.txb c) (if b = 0 then TXB_TILES0 else TXB_TILES1) d = (rd (.txb c) (if b = 0 then TXB_TILES0 else TXB_TILES1) s.dev + 1) % 2 ^ 32 ∧
        ((getCore c d).jobs.all fun k => k.id != j.id || decide (k.phase = .done)) = true))

/-- The stream engines (R238 to R244): a slot's start reaches its engine; a start is refused with its cause or begins and reads its first piece; a
transfer that has been answered completes its slot, and its flag advances unless it was refused. -/
def Obligations.StreamEngines : Prop :=
  ∀ (s : State) (c : CoreRef) (e : Nat), coreOk c = true → e < 2 →
    let k := engKey c.die c.cl e
    let q := getStr k s.dev
    let b := strBlk c e
    (∀ j n sd, headJob (5 + e) (getCore c s.dev) = some j → depsClear j (getCore c s.dev) = true → j.work = .stream e n sd →
      (e = 1 → (headJob 5 (getCore c s.dev)).filter (fun j => depsClear j (getCore c s.dev)) = none) → ∃ d,
      exec (.mvStream c) s = .next { s with dev := d } ∧ getStr k d = { q with queue := q.queue ++ [⟨c, j.stream, j.id, n, sd⟩] } ∧
      getCore c d = modJob j.id (fun k => { k with phase := .running }) (getCore c s.dev) ∧ d.regs = s.dev.regs ∧ d.mem = s.dev.mem) ∧
    (∀ st rest, idle b s.dev = false → q.xfers.any stillIssuing = false → q.queue = st :: rest → st.core = c →
      (∀ cause a j, strCause c st.d s.dev = some (cause, a) → getJob st.job (getCore c s.dev) = some j → j.stream < nStreams c → ∃ d,
        exec (.streamTransferBegin c.die c.cl e) s = .next { s with dev := d } ∧ getStr k d = { q with queue := rest } ∧ faultValid b d = true ∧
        stopped c j.stream d = true ∧ stopCause c j.stream d = 4 ∧ (faultValid b s.dev = false → rdF b STR_FLT 0 8 d = cause % 256) ∧
        (∀ v, a = some v → faultValid b s.dev = false → rd64 b STR_FLT_ADDR_LO d = v % 2 ^ 64) ∧ ∀ k, memRd d k = memRd s.dev k) ∧
      (∀ x, strCause c st.d s.dev = none → st.d = some x → 0 < strTotal x → splitElem x 0 = false → strOut q < 256 → (∀ t ∈ q.xfers, t.id ≠ q.next) →
        let p := pieceAt x 0
        canSend (boundFlow (coreCtx c s.dev) x.flow s.dev) p.1 p.2.2 s.dev → ∃ d, exec (.streamTransferBegin c.die c.cl e) s = .next { s with dev := d } ∧
          (getStr k d).queue = rest ∧ (getStr k d).next = q.next + 1 ∧ rd b STR_CUR d = (st.desc + c.slot * 256 + st.stream * 4096) % 2 ^ 32 ∧
          (∃ t ∈ (getStr k d).xfers, t.id = q.next ∧ t.d = x ∧ t.s = st) ∧
          (∃ r ∈ d.net.reqs, ∃ last, r.by_ = .fetch c.die c.cl e q.next p.2.1 last ∧ r.op = .get ∧ r.addr = p.1) ∧
          getCore c d = getCore c s.dev ∧ ∀ k, memRd d k = memRd s.dev k)) ∧
    (∀ t, q.xfers = [t] → t.ended = false → xferEnded t = true → t.s.core = c → steady [flagBlk (coreCtx c s.dev)] s.dev → ∃ d,
      exec (.streamTransferComplete c.die c.cl e) s = .next { s with dev := d } ∧ getStr k d = { q with xfers := [] } ∧
      ((getCore c d).jobs.all fun j => j.id != t.s.job || decide (j.phase = .done)) = true ∧
      (let counts := t.d.flagEn && !t.d.notify && !t.nacked && !t.stale && flagOpen (coreCtx c s.dev) t.d.flag s.dev
       flagVal (coreCtx c s.dev) t.d.flag d = (flagVal (coreCtx c s.dev) t.d.flag s.dev + b2n counts) % 2 ^ 64) ∧
      memKeptFlag 0 0 (coreCtx c s.dev) t.d.flag s.dev d)

/-! ### The Stitch (R192 to R219, R516) -/

/-- TCK runs, and nothing but what a clause names is due at the Stitch. -/
def Sys2Proof.Machine.calm (d : Dev) : Prop :=
  tckRuns d = true ∧ d.jobs = [] ∧ d.press = [] ∧ d.snap = [] ∧ d.tck.late = [] ∧ d.tck.stops = [] ∧ d.mod_.glitches = [] ∧ d.net.holding = none ∧
  d.net.tablesWait = false ∧ rdBit .fab FAB_CMAP_CTL 0 d = false ∧ childLinks d = []

/-- The Stitch (R192, R193, R202): the number goes up by one, the cycle counts anew, C and B stand for the values in force, the pulse goes out. The
stitch flag of a framed context is brought to the number (R200), and a stream that overruns is counted and recorded once (R204, R205). At its
Stitch an armed change is applied in every block that can, as a write is, or the block is fenced and listed in the miss table with the reason
(R213, R214); and an announced seam completes: the streams that stand at it go on, the segment starts anew, and the Stitches beyond the planned
end are counted (R207, R210). -/
def Obligations.TheStitch : Prop :=
  (∀ s : State, calm s.dev → s.dev.tck.armed = [] → s.dev.tck.seams = [] →
    let m := (stitchNum s.dev + 1) % 2 ^ 64
    (rd64 .tck TCK_FRAME_EN_LO s.dev = 0 → ∃ d, exec .stitch s = .next { s with dev := d } ∧ stitchNum d = m ∧ d.cycle = 0 ∧
      rd .tck TCK_CYCLES d = cyclesOf (rdF .tck TCK_LEN 0 15 s.dev) (commitMhz s.dev) % 2 ^ 32 ∧
      rd .tck TCK_BUDGET d = budgetOf (rdF .tck TCK_LEN 0 15 s.dev) (commitMhz s.dev) (rdF .tck TCK_GUARD 0 7 s.dev) % 2 ^ 32 ∧
      d.out = .pin 2 false :: .pin 2 true :: s.dev.out ∧ d.mem = s.dev.mem ∧ d.cores = s.dev.cores ∧ d.net = s.dev.net ∧ d.log = s.dev.log ∧
      regsKept ([TCK_NUM_LO, TCK_NUM_HI, TCK_CYCLES, TCK_BUDGET, TCK_ARM_STAT].map (regKey .tck) ++ (List.range 32).map (bankKey .pwr PWR_CLU)) s.dev d) ∧
    (overruns s.dev = [] → ∃ d, exec .stitch s = .next { s with dev := d } ∧ stitchNum d = m ∧ ∀ x, x < 64 → framed x s.dev = true →
      steady [flagBlk x] s.dev → flagServed x s.dev = true → flagPoison x stitchFlag s.dev = false → flagVal x stitchFlag d = m) ∧
    (∀ x c st cause thr, overruns s.dev = [(x, c, st, cause, thr)] → ∃ d, exec .stitch s = .next { s with dev := d } ∧ stitchNum d = m ∧
      rdB .tck TCK_OVR_CNT x d = (rdB .tck TCK_OVR_CNT x s.dev + 1) % 2 ^ 32 ∧ rdBit .tck TCK_OVR 31 d = true ∧
      (rdBit .tck TCK_OVR 31 s.dev = false → rdF .tck TCK_OVR 0 6 d = x ∧ rdF .tck TCK_OVR 16 4 d = st ∧ rdF .tck TCK_OVR 20 3 d = cause ∧
        rdBit .tck TCK_OVR 23 d = thr ∧ rd64 .tck TCK_OVR_NUM_LO d = m) ∧
      (rdBit .tck TCK_OVR 31 s.dev = true → rd .tck TCK_OVR d = rd .tck TCK_OVR s.dev))) ∧
  (∀ s : State, calm s.dev → rd64 .tck TCK_FRAME_EN_LO s.dev = 0 →
    let m := (stitchNum s.dev + 1) % 2 ^ 64
    (∀ (e : Nat) (a : Armed) (b : Blk) (o v : Nat) (sp : RegSpec), s.dev.tck.seams = [] → s.dev.tck.armed = [(e, a)] → e < 16 → a.n ≤ m → a.shadow = [] →
      a.after = .none → a.pairs = [(regKey b o, v)] → v < 2 ^ 32 → physOffset a.org (regKey b o) s.dev = some (regKey b o) →
      presentBlk (regKey b o) s.dev = some b → regOff (regKey b o) = o → viewOf (regKey b o) = 0 → regSpec b o = some sp → sp.w1c = 0 → plainBlk b = true →
      b ≠ .pwr → 0x40 ≤ o → o ≠ R_WPERM → denied a.org b o 0 v sp s.dev = false →
      let k := accKey b o s.dev
      let w := sp.rw ||| (if locked b s.dev then 0 else sp.rwl)
      let reason := missReason a (blkAcked a b s.dev) b s.dev
      (reason = none → ∃ d, exec .stitch s = .next { s with dev := d } ∧ stitchNum d = m ∧ d.tck.armed = [] ∧
        rdKey d k = ((rdKey s.dev k &&& (all32 - w)) ||| (normReg b o (v &&& w) s.dev &&& w)) % 2 ^ 32 ∧
        d.log.ring.head?.map (fun l => (l.cls, l.id, l.addr, l.armed)) = some (a.org.cls, a.org.id, regKey b o, true) ∧ d.mem = s.dev.mem) ∧
      (∀ r i, reason = some r → i < 32 → bit (rdB .tck TCK_MISS_INFO i s.dev) 8 = false → (∀ q, q < i → bit (rdB .tck TCK_MISS_INFO q s.dev) 8 = true) → ∃ d,
        exec .stitch s = .next { s with dev := d } ∧ stitchNum d = m ∧ d.tck.armed = [] ∧ rdKey d k = rdKey s.dev k ∧ fenced b d = true ∧
        faultValid .tck d = true ∧ rdB .tck TCK_MISS i d = blkId b % 2 ^ 32 ∧ rdB .tck TCK_MISS_INFO i d = e + r * 16 + 256 ∧ d.mem = s.dev.mem)) ∧
    (∀ (ctx : Nat) (sm : SeamSt) (t : Nat), s.dev.tck.armed = [] → s.dev.tck.seams = [(ctx, sm)] → sm.due = some t → t ≤ m →
      let planned := sm.start + bits (rdB .tck TCK_SEG ctx s.dev) 0 16
      let cs := ctxCores ctx s.dev
      ∃ d, exec .stitch s = .next { s with dev := d } ∧ stitchNum d = m ∧ getSeam ctx d = { start := m } ∧
        (∀ c ∈ cs, ∀ n, (getStream c n d).seam = false) ∧ d.mem = s.dev.mem ∧
        rdB .tck TCK_OVF_CNT ctx d = (rdB .tck TCK_OVF_CNT ctx s.dev + (if cs = [] then 0 else m - planned)) % 2 ^ 32))

/-- The timebase (R194 to R198, R516): a tick of the parent sets number and offset, sixteen good ones align the device and end holdover, and it may
announce seams or that holdover has expired; an edge at the root counts likewise, a stray one is reported; holdover begins for its three causes,
and its expiry stops every framed context. -/
def Obligations.Timebase : Prop :=
  ∀ s : State,
    let t := s.dev.tck
    let counted (good : Bool) (d : Dev) : Prop :=
      if good = true ∧ 15 ≤ t.good then d.tck.aligned = true ∧ d.tck.good = 16 ∧ d.tck.holdover = false
      else d.tck.good = (if good then t.good + 1 else 0) ∧ d.tck.aligned = t.aligned ∧ d.tck.holdover = t.holdover
    let framedCtxs := (List.range 64).filter fun x => framed x s.dev
    (∀ link (k : Tick) (off : Int), tckRuns s.dev = true → parentLink s.dev = some link → t.lenArm = none → k.holdExp = false → k.snum < 2 ^ 64 →
      childLinks s.dev = [] → ∃ d, exec (.tickMessage link { tick := k } off) s = .next { s with dev := d } ∧ stitchNum d = k.snum ∧ d.tck.ticked = true ∧
        d.tck.missed = 0 ∧ rdF .tck TCK_OFFSET 0 16 d = wrap 16 off ∧
        counted (decide (-50 ≤ off) && decide (off ≤ 50)) d ∧ d.mem = s.dev.mem ∧ d.net = s.dev.net ∧
        ∀ x, x < 64 → bit k.announce x = true → (getSeam x s.dev).due = none → (getSeam x s.dev).own.isSome = true → 0 < k.lead →
          (getSeam x d).due = some (k.snum + k.lead)) ∧
    (∀ link (k : TickRx) (off : Int), (tckRuns s.dev = false ∨ parentLink s.dev ≠ some link ∨ k.replay = true) →
      exec (.tickMessage link k off) s = .next s) ∧
    (∀ p, tckRuns s.dev = true → rdBit .tck TCK_CFG 0 s.dev = true → rdBit .tck TCK_CFG 1 s.dev = true →
      let stray := t.aligned && t.synced && !t.holdover && (decide (p < 99900) || decide (100100 < p))
      (stray = true → ∃ d, exec (.tickSyncEdge p) s = .next { s with dev := d } ∧ rd .pci PCI_PIN_STRAY d = (rd .pci PCI_PIN_STRAY s.dev + 1) % 2 ^ 32 ∧
        rdBit .pci R_EVENT 10 d = true ∧ onlyRegs [regKey .pci PCI_PIN_STRAY, regKey .pci R_EVENT] s.dev d) ∧
      (stray = false → ∃ d, exec (.tickSyncEdge p) s = .next { s with dev := d } ∧ d.tck.synced = true ∧ d.tck.syncLost = false ∧ counted true d ∧
        { s.dev with tck := d.tck } = d)) ∧
    (∀ cause, t.holdover = false →
      (cause = 0 ∧ rdBit .tck TCK_CFG 0 s.dev = false ∧ 4 ≤ t.missed ∨
        cause = 1 ∧ rdBit .tck TCK_CFG 0 s.dev = false ∧ (parentLink s.dev).any (fun l => !linkUp l s.dev) = true ∨
        cause = 2 ∧ rdBit .tck TCK_CFG 0 s.dev = true ∧ rdBit .tck TCK_CFG 1 s.dev = true) → ∃ d,
      exec (.holdoverEntry cause) s = .next { s with dev := d } ∧ d.tck = { t with holdover := true, good := 0, syncLost := t.syncLost || cause == 2 } ∧
      rdF .tck TCK_HOLD 0 14 d = 0 ∧ rdBit .tck R_EVENT 8 d = true ∧
      onlyRegs [regKey .tck TCK_HOLD, regKey .tck R_EVENT] { s.dev with tck := d.tck } d) ∧
    (t.holdover = true → t.expired = false → ∃ d, exec .holdoverExpiry s = .next { s with dev := d } ∧
      d.tck = { t with expired := true, stops := t.stops ++ framedCtxs.map fun x => (x, 6) } ∧
      rdF .tck TCK_HOLD 0 14 d = rdF .tck TCK_HOLD 16 14 s.dev ∧ faultValid .fab d = true ∧
      (faultValid .fab s.dev = false → rd .fab FAB_LOST d = rootDev s.dev % 32768 + 2 * 2 ^ 24) ∧
      onlyRegs [regKey .tck TCK_HOLD, regKey .fab R_FAULT, regKey .fab FAB_LOST] { s.dev with tck := d.tck } d)

/-- The seam barrier (R206, R209, R268): a child's arrival and the device's own are joined, and the joined arrival goes up once; an arrival held too
long counts as not made; a barrier that does not complete in time loses its silent peer and resets the context. -/
def Obligations.SeamBarrier : Prop :=
  ∀ (s : State) (ctx : Nat), ctx < 64 →
    let x := getSeam ctx s.dev
    let others (d : Dev) : Prop := (∀ k, k ≠ ctx → getSeam k d = getSeam k s.dev) ∧ { s.dev with tck := { s.dev.tck with seams := d.tck.seams } } = d
    (∀ link held, (childLinks s.dev).contains link = true → ∃ d, exec (.seamArrivalMessage link ctx held) s = .next { s with dev := d } ∧
      getSeam ctx d = { x with kids := x.kids.filter (fun k => k.1 != link) ++ [(link, held)], sent := x.sent || joined ctx d } ∧ others d) ∧
    (∀ link held, (childLinks s.dev).contains link = false → exec (.seamArrivalMessage link ctx held) s = .next s) ∧
    (x.own = none → (ctxCores ctx s.dev).isEmpty = false → allArrived ctx s.dev = true → s.dev.jobs = [] → s.dev.snap = [] → captureDue ctx s.dev = false → ∃ d,
      exec (.deviceSeamArrival ctx) s = .next { s with dev := d } ∧
      getSeam ctx d = { x with own := some (stitchNum s.dev), sent := x.sent || joined ctx d } ∧ others d) ∧
    ((allArrived ctx s.dev = false ∨ x.own.isSome = true ∨ withheld ctx s.dev = true) → exec (.deviceSeamArrival ctx) s = .next s) ∧
    (let w := withheld ctx s.dev
     let kids := x.kids.filter (!·.2)
     ∃ d, exec (.refitHoldExpiry ctx) s = .next { s with dev := d } ∧ others d ∧
       getSeam ctx d = { x with held := false, kids := kids, own := if w then none else x.own, sent := x.sent && !w && x.kids.all (!·.2) }) ∧
    (let limit := rdF .tck TCK_SEAM 8 8 s.dev
     let planned := x.start + bits (rdB .tck TCK_SEG ctx s.dev) 0 16 + limit
     let late := bound ctx s.dev && !anyHeld ctx s.dev && decide (planned ≤ stitchNum s.dev) &&
       (match x.own with | some t => decide (t + limit ≤ stitchNum s.dev) | none => true)
     (late = false → exec (.seamTimeout ctx) s = .next s) ∧
     (late = true → ∃ d0, exec (.seamTimeout ctx) s = exec (.contextReset ctx 6) { s with dev := d0 } ∧ faultValid .fab d0 = true ∧
       (faultValid .fab s.dev = false → rd .fab FAB_LOST d0 = silentDev ctx s.dev % 32768 + ctx * 65536 + 2 ^ 24) ∧
       onlyRegs [regKey .fab R_FAULT, regKey .fab FAB_LOST] s.dev d0) ∧
     (late = true → s.dev.runs = [] → hostHolds false s.dev = false →
       (∃ c ∈ ctxCores ctx s.dev, ∃ q ∈ s.dev.net.reqs, byDom (.core c) q.by_ s.dev = true) → ∃ d, exec (.seamTimeout ctx) s = .next { s with dev := d } ∧
       resetBegun (.context ctx) ((ctxCores ctx s.dev).map .core) .rst 0 ctx 6 s.dev d ∧ faultValid .fab d = true ∧ d.out = .msix (ctx + 1) 0 :: s.dev.out))

/-! ### The memories of themselves (R222 to R233, R246) -/

/-- Scrub meets an error in the line it reads: within what the code corrects it is counted and the granule is due for write-back; within what the code
detects it is counted, reported and the granule is poisoned; no byte of memory changes (R222, R225, R229, R232, R233). Without an error, scrub
changes nothing. A corrected granule is written back, a correction window ends, an injection is armed (R225, R232, R246); and a far-memory channel
that fails, of itself or because it is marked for map-out, is recorded and reports itself once (R231). -/
def Obligations.MemoryCare : Prop :=
  (∀ (s : State) (c : CoreRef) (dd i n r : Nat) (f : Flaw), s.dev.flaws = [] → s.dev.poison = [] → coreOk c = true → dd < 4 →
    let scrub (fs : List Flaw) : List (Instr × Blk × Nat × Nat × Prop) :=
      [(.lmmScrub c n fs, .lmm c, keyLoc c (64 * n), 64, 64 * n < lmSize c),
       (.nscScrub dd i n fs, .nsc dd i, nscWordKey dd i n, 32, i < 4 ∧ n < 50331648 + 16384 ∧ isSafe (.nsc dd i) s.dev = false),
       (.fmcScrub dd i n fs, .fmc dd i, chanLineKey r (n % chanLines) s.dev, 128, i < 6 ∧ n < 4 * chanLines ∧ isSafe (.fmc dd i) s.dev = false ∧
          s.dev.farMap.findIdx? (· == 24 * dd + 4 * i + n / chanLines % 4) = some r ∧ chanState (24 * dd + 4 * i + n / chanLines % 4) s.dev = 2)]
    (∀ e ∈ scrub [f], scrubOn e.2.1 s.dev = true → e.2.2.2.2 → granOf f.key ∈ gransOf e.2.2.1 e.2.2.2.1 → keyBlk (granOf f.key) s.dev = e.2.1 →
      granOf (granOf f.key) = granOf f.key →
      let b := e.2.1
      let g := granOf f.key
      let lim := eccLimits b s.dev
      (0 < f.n → f.n ≤ lim.1 → ∃ d, exec e.1 s = .next { s with dev := d } ∧ rd64 b ECC_CE_LO d = (rd64 b ECC_CE_LO s.dev + 1) % 2 ^ 64 ∧
        rd64 b ECC_CADDR_LO d = keyAddr g s.dev % 2 ^ 64 ∧ d.wback.contains g = true ∧ d.mem = s.dev.mem ∧ d.poison = s.dev.poison) ∧
      (lim.1 < f.n → f.n ≤ lim.2 → ∃ d, exec e.1 s = .next { s with dev := d } ∧ rd b ECC_UE d = (rd b ECC_UE s.dev + 1) % 2 ^ 32 ∧
        faultValid b d = true ∧ isPoison g d = true ∧ d.flaws = [] ∧ d.mem = s.dev.mem)) ∧
    (∀ e ∈ scrub [], exec e.1 s = .next s)) ∧
  (∀ (s : State) (org : Org) (b : Blk) (val : Nat), val < 2 ^ 32 →
    let failed (ch : Nat) (d : Dev) : Prop := chanState ch d = 3 ∧ d.flash.mapout.contains ch = true ∧ rdBit (chanBlk ch) R_EVENT 8 d = true ∧
      faultValid (chanBlk ch) d = true ∧ d.mem = s.dev.mem ∧ d.flash.repairs = s.dev.flash.repairs
    (∀ g, (s.dev.wback.find? fun g => decide (keyBlk g s.dev = b)) = some g → ∃ d, exec (.eccWriteback b) s = .next { s with dev := d } ∧
      flawAt g d = 0 ∧ d.wback = Sparse.unmark s.dev.wback g ∧ (∀ q, q ≠ g → flawAt q d = flawAt q s.dev) ∧
      { s.dev with flaws := d.flaws, wback := d.wback } = d) ∧
    (∃ d, exec (.eccWindowEnd b) s = .next { s with dev := d } ∧ rdF b ECC_WIN 0 16 d = 0 ∧ d.eccOnce = Sparse.unmark s.dev.eccOnce (blkBase b) ∧
      onlyRegs [regKey b ECC_WIN] { s.dev with eccOnce := d.eccOnce } d) ∧
    ((∃ c k i, b = .lmm c ∨ b = .nsc k i ∨ b = .fmc k i) → writable org b ECC_INJ (val ||| 1) s.dev → ∃ d,
      exec (.eccInject org b val) s = .next { s with dev := d } ∧ rdBit b ECC_INJ 3 d = true ∧ rdF b ECC_INJ 1 2 d = bits val 1 2 ∧
      onlyLogged [regKey b ECC_INJ] s.dev d) ∧
    (∀ k i j, k < 4 → i < 6 → j < 4 → let ch := 24 * k + 4 * i + j
      (chanState ch s.dev = 2 → ∃ d, exec (.channelFail k i j) s = .next { s with dev := d } ∧ failed ch d) ∧
      (chanState ch s.dev ≠ 2 → exec (.channelFail k i j) s = .next s) ∧
      (chanState ch s.dev = 2 → writable org (.fmc k i) (FMC_CHAN0 + 4 * j) (val ||| 0x10000) s.dev → ∃ d,
        exec (.mapoutNext org k i j val) s = .next { s with dev := d } ∧ rdBit (.fmc k i) (FMC_CHAN0 + 4 * j) 16 d = true ∧ failed ch d)))

/-! ### The mesh (R276 to R286, R295) -/

/-- A packet of the mesh takes its next hop by the routing table of its bank, leaves at its router (a request whose unit's port takes
none is answered there, R297), is merged with one that waits, or is dropped with an answer (R280, R282, R284 to R286, R295, R299); held injections proceed in order once no packet of the old bank is left (R283); and a router that is
retired is recorded, with the ports that face it and the units on it out of service (R285). -/
def Obligations.Mesh : Prop :=
  ∀ s : State,
    (∀ k m, s.dev.net.mesh[k]? = some m →
      let b := posBlk m.at_
      let rest := s.dev.net.mesh.eraseIdx k
      let e := rtEntry m.at_ m.bank m.dst s.dev
      let alone : Prop := rdBit b MSH_CFG 1 s.dev = false ∧ isRetired m.at_ s.dev = false
      let kept (d : Dev) : Prop := d.mem = s.dev.mem ∧ d.cores = s.dev.cores ∧ d.net.reqs = s.dev.net.reqs
      let outs := (if m.escape || bits e 4 4 == 0 || !rdBit b MSH_CFG 0 s.dev || isSafe b s.dev then [bits e 0 3]
        else bits e 0 3 :: [0, 1, 2, 3].filter fun o => bit (bits e 4 4) o)
      let sent (o : Nat) (d : Dev) : Prop := rdB64 b MSH_FLITS_LO o d = (rdB64 b MSH_FLITS_LO o s.dev + flits m.a.pkt) % 2 ^ 64 ∧
        regsKept [bankKey b MSH_FLITS_LO o, bankKey b (MSH_FLITS_LO + 4) o] s.dev d
      (alone → m.at_ = m.dst → bit e 8 = true → outs = [4] → m.goal = .unit →
        (toUnit m.a.pkt.op = true → portAnswer m.at_ (arrSpot m.a s.dev) (reqLen m.a.pkt) s.dev = none) → ∃ d,
        exec (.meshPacketForward k 0) s = .next { s with dev := d } ∧
        d.net = { s.dev.net with mesh := rest, arrived := s.dev.net.arrived ++ [m.a] } ∧ { s.dev with net := d.net, regs := d.regs } = d ∧
        sent (unitPort (packetUnit m.a s.dev) m.at_) d) ∧
      (∀ reason, alone → m.at_ = m.dst → bit e 8 = true → outs = [4] → m.goal = .unit → toUnit m.a.pkt.op = true →
        portAnswer m.at_ (arrSpot m.a s.dev) (reqLen m.a.pkt) s.dev = some reason → ∃ d,
        exec (.meshPacketForward k 0) s = .next { s with dev := d } ∧ d.net.arrived = s.dev.net.arrived ∧ d.mem = s.dev.mem ∧ d.cores = s.dev.cores ∧
        rd b MSH_NACK d = (rd b MSH_NACK s.dev + b2n (decide (reason = nkTargetReset))) % 2 ^ 32) ∧
      (∀ l, alone → m.at_ = m.dst → bit e 8 = true → outs = [4] → m.goal = .link l → fenced b s.dev = false → ∃ d,
        exec (.meshPacketForward k 0) s = .next { s with dev := d } ∧ d.net.mesh = rest ∧
        (getLink l d).tx = (getLink l s.dev).tx ++ [{ m.space.getD { pkt := m.a.pkt } with pkt := m.a.pkt }] ∧ kept d ∧ sent 4 d) ∧
      (alone → bit e 8 = true → (∀ o ∈ outs, o < 4 ∧ ∃ q, neighbour m.at_ o = some q ∧ hopDown q s.dev = none) → ∃ d o q esc,
          exec (.meshPacketForward k 0) s = .next { s with dev := d } ∧
          o ∈ outs ∧ neighbour m.at_ o = some q ∧ d.net.mesh = rest ++ [{ m with at_ := q, escape := esc }] ∧ (m.escape = true → esc = true) ∧ kept d ∧
          sent o d) ∧
      (∀ flaw, (flaw = 2 ∨ (flaw = 0 ∧ isRetired m.at_ s.dev = true)) → ∃ d, exec (.meshPacketForward k flaw) s = .next { s with dev := d } ∧
        d.mem = s.dev.mem ∧ d.cores = s.dev.cores ∧ d.net.arrived = s.dev.net.arrived ∧
        rd b MSH_NACK d = (rd b MSH_NACK s.dev + b2n (isRequest m.a.pkt.op)) % 2 ^ 32 ∧
        (flaw = 2 → rdBit b R_EVENT 8 d = true ∧ rdF b MSH_ECC 16 16 d = min 65535 (rdF b MSH_ECC 16 16 s.dev + 1)) ∧
        (isRequest m.a.pkt.op = false → d.net.mesh = rest)) ∧
      (∀ y, rdBit b MSH_CFG 1 s.dev = true → isSafe b s.dev = false → isRetired m.at_ s.dev = false → m.at_ = m.dst → m.goal = .unit →
        bit e 8 = true → outs = [4] → toUnit m.a.pkt.op = true → portAnswer m.at_ (arrSpot m.a s.dev) (reqLen m.a.pkt) s.dev = none →
        rest.filter (mergeable s.dev m) = [y] → ∃ d a, exec (.meshPacketForward k 0) s = .next { s with dev := d } ∧
        d.net.arrived = s.dev.net.arrived ++ [a] ∧ d.net.mesh = rest.filter (fun x => !mergeable s.dev m x) ∧
        a.pkt.data = addElems m.a.pkt.atype (m.a.pkt.data.length / atypeSize m.a.pkt.atype) m.a.pkt.data y.a.pkt.data ∧
        a.pkt.aux1 = max 1 m.a.pkt.aux1 + max 1 y.a.pkt.aux1 ∧ (y.a.pkt.srcDev, y.a.pkt.srcFlow, y.a.pkt.seq) ∈ a.pkt.merged ∧
        rd64 b MSH_COMB_LO d = (rd64 b MSH_COMB_LO s.dev + 1) % 2 ^ 64 ∧ kept d)) ∧
    (∀ t, s.dev.net.holding = some t → oldGone s.dev = true → ∃ d, exec .injectionHoldRelease s = .next { s with dev := d } ∧ d.net.holding = none ∧
      d.net.hold = [] ∧ d.net.mesh.map (fun m => (m.at_, m.dst, m.goal)) = (s.dev.net.mesh ++ s.dev.net.hold).map (fun m => (m.at_, m.dst, m.goal)) ∧
      d.mem = s.dev.mem) ∧
    ((s.dev.net.holding = none ∨ oldGone s.dev = false) → exec .injectionHoldRelease s = .next s) ∧
    (∀ (org : Org) (k r val : Nat), val < 2 ^ 32 → k < 4 → r < 48 → writable org (.msh k r) MSH_CFG (val ||| 0x100) s.dev →
      let q := routerPos k r
      let p := posOf q.1 q.2
      isRetired p s.dev = false → ∃ d, exec (.routerRetire org k r val) s = .next { s with dev := d } ∧ isRetired p d = true ∧
        d.flash.routers.contains p = true ∧ (∀ o n, o < 4 → neighbour p o = some n → rdBit (posBlk n) R_EVENT 9 d = true) ∧
        (∀ c ∈ coresAt p, coreAlive c d = false))

/-! ### The Marker (R251 to R274) -/

/-- FIT queues a request, a second one for the context is logged as denied; UNBIND marks a bound context, and frees one that is not bound any more;
REFIT_NOW sets its trigger (R252, R267, R273). -/
def Obligations.MarkerRequests : Prop :=
  ∀ (s : State) (org : Org) (val : Nat), val < 2 ^ 32 →
    let ctx := bits val 0 6
    let k := regKey .mrk MRK_CTL
    (writable org .mrk MRK_CTL (val ||| 0x100) s.dev → bits val 9 2 = 0 → ∃ d, exec (.mrkFit org val) s = .next { s with dev := d } ∧
      d.fits = (if fitPending ctx s.dev then s.dev.fits else s.dev.fits ++ [(ctx, rd64 .mrk MRK_SUBMIT_LO s.dev)]) ∧ rdF .mrk MRK_CTL 0 6 d = ctx ∧
      d.log.ring.head?.map (fun e => (e.cls, e.id, e.addr, e.denied)) = some (org.cls, org.id, k, fitPending ctx s.dev) ∧
      onlyLogged [k] { s.dev with fits := d.fits } d) ∧
    (writable org .mrk MRK_CTL (val ||| 0x200) s.dev → bits val 8 1 = 0 → bits val 10 1 = 0 →
      (∀ j, jobAt ctx s.dev = some j → j.phase = 1 → (ctxCores ctx s.dev).isEmpty = false → ∃ d, exec (.mrkUnbind org val) s = .next { s with dev := d } ∧
        d.jobs = s.dev.jobs.map (fun x => if x.ctx = ctx then { x with unbind := true } else x) ∧ onlyLogged [k] { s.dev with jobs := d.jobs } d) ∧
      (∀ j, jobAt ctx s.dev = some j → j.phase = 2 ∨ j.phase = 3 → s.dev.net.reqs = [] → ∃ d, exec (.mrkUnbind org val) s = .next { s with dev := d } ∧
        d.jobs = s.dev.jobs.filter (fun x => x.ctx != ctx) ∧ d.binds = s.dev.binds.filter (fun x => x.1 / 1024 != ctx) ∧
        (∀ f ∈ j.flows, rdB .fab FAB_FLOW f.2 d = 0 ∧ d.net.flows.all (fun x => x.1 != f.2) = true) ∧ (∀ e, e < 8 → rdB .pci PCI_GRANT (ctx + 64 * e) d = 0) ∧
        d.mem = s.dev.mem) ∧
      (jobAt ctx s.dev = none → ∃ d, exec (.mrkUnbind org val) s = .next { s with dev := d } ∧ onlyLogged [k] s.dev d)) ∧
    (writable org .mrk MRK_CTL (val ||| 0x400) s.dev → bits val 8 2 = 0 → ∃ d, exec (.mrkRefitNow org val) s = .next { s with dev := d } ∧
      d.jobs = s.dev.jobs.map (fun j => if j.ctx = ctx ∧ (j.phase = 1 ∨ j.phase = 4) then { j with trig := putBits j.trig 4 1 1 } else j) ∧
      onlyLogged [k] { s.dev with jobs := d.jobs } d)

/-- FITTING serves the request at the front, where no refit is due and no other switch is still binding: it refuses a context that holds cores, a failed device, an address it cannot read, and a pattern with the
cause of the first step that fails; else the context's places are set and the switch is armed for the second Stitch after (R252, R253, R258). -/
def Obligations.Fitting : Prop :=
  ∀ (s : State) (p : Pattern) (ctx addr : Nat) (rest : List (Nat × Nat)), s.dev.fits = (ctx, addr) :: rest → ctx < 64 → markerRuns s.dev = true →
    (refitDue s.dev ≠ none ∨ serving s.dev = true → exec (.fitting p) s = .next s) ∧
    (refitDue s.dev = none → serving s.dev = false →
      let d0 := fitStat ctx 1 0 { s.dev with fits := rest }
      let a := fitArgs ctx p d0
      let auth := objCheck 3 p.obj d0
      let free : Prop := (jobAt ctx s.dev).any holdsCores = false ∧ devFailed s.dev = false ∧ patAddrOk addr s.dev = true
      let refused (cause : Nat) (item : Option Nat) : Prop := ∃ d, exec (.fitting p) s = .next { s with dev := d } ∧ d.fits = rest ∧
        rd .mrk MRK_FIT_STAT d = ctx + 4 * 256 + cause * 65536 ∧ rdBit .mrk R_EVENT 8 d = true ∧ faultValid .mrk d = true ∧
        (faultValid .mrk s.dev = false → rdF .mrk R_FAULT 0 16 d = cFitError ∧ item.all (fun i => rd .mrk MRK_FIT_DETAIL d == i % 2 ^ 32) = true) ∧
        d.jobs = s.dev.jobs ∧ d.binds = s.dev.binds ∧ d.tck = s.dev.tck ∧ d.net = s.dev.net ∧ d.mem = s.dev.mem
      ((jobAt ctx s.dev).any holdsCores = true → refused 11 none) ∧
      ((jobAt ctx s.dev).any holdsCores = false → devFailed s.dev = true → refused 4 none) ∧
      ((jobAt ctx s.dev).any holdsCores = false → devFailed s.dev = false → patAddrOk addr s.dev = false → refused 1 none) ∧
      (free → auth ≠ 0 → refused 1 none) ∧
      (free → auth = 0 → p.wellFormed = false → refused 2 none) ∧
      (free → auth = 0 → ∀ c, fitChecks 0 a d0 = .error c → refused (c % 16) (if c < 16 then none else some (c / 16 - 1))) ∧
      (free → auth = 0 → ∀ (x : FitPlan) (e : Nat), fitChecks 0 a d0 = .ok x → isSafe .tck s.dev = false → freeEntry s.dev = some e →
        s.dev.net.binds = [] → s.dev.net.tablesWait = false → ∃ d j w, exec (.fitting p) s = .next { s with dev := d } ∧ d.fits = rest ∧ rd .mrk MRK_FIT_STAT d = ctx + 2 * 256 ∧
        jobAt ctx d = some j ∧ j.phase = 0 ∧ j.pat = p ∧ (j.cores, j.clus, j.flows, j.bufs, j.loads) = (x.cores, x.asg, x.flows, x.bufs, x.loads) ∧
        d.tck.armed = s.dev.tck.armed ++ [(e, w)] ∧ w.n = stitchNum s.dev + 2 ∧ w.after = .bind ctx ∧ w.shadow = bindShadow ctx p x [] (restoreArm ctx s.dev) ∧
        d.binds = s.dev.binds ∧ ∀ k, k ≠ ctx → jobAt k d = jobAt k s.dev))

/-- A refit that is due is performed, the lowest context first and no switch still binding, and one that fails stops its context with FIT_ERROR (R267, R270); a migration moves its
buffer within its segment and counts the bytes, or counts the slot that ended before (R263). -/
def Obligations.RefitAndMigration : Prop :=
  ∀ (s : State) (ctx : Nat),
    (refitDue s.dev ≠ some ctx ∨ serving s.dev = true → exec (.refit ctx) s = .next s) ∧
    (∀ j, refitDue s.dev = some ctx → serving s.dev = false → jobAt ctx s.dev = some j → markerRuns s.dev = true →
      let d1 := fitStat ctx 5 0 (raiseCap ((List.range 32).foldl (fun d q => substituteLive (q / 8) (q % 8) d) s.dev))
      let on := j.phase == 1
      let a : FitArgs := { ctx := ctx, pat := j.pat, epoch := on && j.epoch, kept := if on then j.bufs else [], held := j.bufs }
      (∀ c, devFailed d1 = false → jobAt ctx d1 = some j → fitChecks 0 a d1 = .error c → ∃ d, exec (.refit ctx) s = .next { s with dev := d } ∧
        rd .mrk MRK_FIT_STAT d = ctx % 64 + 6 * 256 + c % 16 * 65536 ∧ faultValid .mrk d = true ∧ rdBit .mrk R_EVENT 8 d = true ∧
        (jobAt ctx d).map (fun j => (j.phase, j.due)) = some (3, false) ∧ d.tck.stops = d1.tck.stops ++ (if on then [(ctx, 6)] else []) ∧ d.mem = d1.mem) ∧
      (∀ (x : FitPlan) (e : Nat), devFailed d1 = false → fitChecks 0 a d1 = .ok x → isSafe .tck d1 = false → freeEntry d1 = some e →
        d1.net.binds = [] → ∃ d k w, exec (.refit ctx) s = .next { s with dev := d } ∧ jobAt ctx d = some k ∧ k.phase = 0 ∧ k.cores = x.cores ∧
        d.tck.armed = d1.tck.armed ++ [(e, w)] ∧ w.n = stitchNum d1 + 2 ∧ w.after = .bind ctx)) ∧
    (∀ k j m b, migDue ctx k s.dev = some (j, m, b) →
      (∃ d, exec (.migrationAbort ctx k) s = .next { s with dev := d } ∧ rd .mrk MRK_MIG_ABORT d = (rd .mrk MRK_MIG_ABORT s.dev + 1) % 2 ^ 32 ∧
        onlyRegs [regKey .mrk MRK_MIG_ABORT] s.dev d) ∧
      (markerRuns s.dev = true → migPlace j m b s.dev = none → exec (.migration ctx k) s = .next s) ∧
      (∀ off, markerRuns s.dev = true → migPlace j m b s.dev = some off → (j.pat.relocs.any fun r => !r.isFlow && r.item == b.n) = false →
        sound s.dev →
        let dest : BufPlace := { b with space := if m.toNear then 0 else 1, off := off }
        ∃ d, exec (.migration ctx k) s = .next { s with dev := d } ∧ (∀ i, i < b.size → memRd d (placeKey dest i) = memRd s.dev (placeKey b i)) ∧
          memKept (placeKey dest 0) b.size s.dev d ∧ rd64 .mrk MRK_MIG_LO d = (rd64 .mrk MRK_MIG_LO s.dev + b.size) % 2 ^ 64 ∧
          d.jobs = s.dev.jobs.map (fun x => if x.ctx = ctx then { x with bufs := j.bufs.map fun y => if y.n = b.n then dest else y } else x))) ∧
    (∀ k, migDue ctx k s.dev = none → exec (.migration ctx k) s = .next s ∧ exec (.migrationAbort ctx k) s = .next s)

/-! ### Requests at their target and responses at their issuer (R187, R226, R233 to R235, R243, R287 to R298) -/

/-- A request stands at the memory granule or flag its address names, its port has let it in or lets it in now, every controller of its bytes
performs operations, and none of those has an earlier request waiting (R250, R297, R300). -/
def Sys2Proof.Machine.atMemory (a : Arrival) (k : Nat) (d : Dev) : Prop :=
  rowRefused a d = false ∧ arrSpot a d = .mem k ∧
  (d.net.arrived.contains a = true ∨ (a.link = none ∧ portAnswer (servedAt a (keyBlk k d) d) (.mem k) (reqLen a.pkt) d = none)) ∧
  ∀ b ∈ spotBlks (.mem k) (reqLen a.pkt) d, holdsReq b false d = false ∧ waitsBehind a b d = false

/-- The answer is on its way: through the mesh to a unit of the device, or waiting for a link to another device (R298, R308, R312). -/
def Sys2Proof.Machine.answered (q : Packet) (op : Op) (aux0 : Nat) (data : List Byte) (d d' : Dev) : Prop :=
  let it (p : Packet) : Prop := p.op = op ∧ p.cls = clRsp ∧ p.aux0 = aux0 ∧ p.data = data ∧ p.seq = q.seq ∧ p.dstFlow = q.srcFlow
  (q.srcDev ≠ ownDev d → ∃ r ∈ d'.net.resv, it r.pkt) ∧
  (q.srcDev = ownDev d → d.net.holding = none → q.flow = false → (∃ x ∈ d.net.reqs, x.tag = q.tag ∧ x.flow = none) → ∃ m ∈ d'.net.mesh, it m.a.pkt)

/-- Each operation at memory (R226, R287, R288, R390): a write stores its bytes, a read answers them, an addition, a comparison and a flag's advance
do their work in one piece; nothing else in memory changes, and the answer goes back. -/
def Obligations.RequestsServed : Prop :=
  ∀ (s : State) (a : Arrival) (k : Nat), atMemory a k s.dev → a.pkt.flow = false ∨ a.link = none → s.dev.flaws = [] →
    (∀ i, keyFailed (k + i) s.dev = false) →
    let q := a.pkt
    let n := q.data.length
    let old (m : Nat) := memBytes k m s.dev
    let stored (bs : List Byte) (d : Dev) : Prop := (∀ i, i < bs.length → memRd d (k + i) = bs.getD i 0) ∧ memKept k bs.length s.dev d
    let free (m : Nat) : Prop := windowBars a k m s.dev = false
    (∀ i, (i, q.op) ∈ [(Instr.putReceive a, Op.put), (.putNotifyReceive a, .putNotify)] → free n → stitchKey k s.dev = false → ∃ d,
      exec i s = .next { s with dev := d } ∧ stored q.data d ∧ answered q .ack 0 [] s.dev d) ∧
    (q.op = .get → ∃ d, exec (.getReceive a []) s = .next { s with dev := d } ∧ answered q .data 0 (old (q.len + 1)) s.dev d ∧ ∀ x, memRd d x = memRd s.dev x) ∧
    (q.op = .add → free n → anyPoison k n s.dev = false → ∃ d, exec (.addReceive a) s = .next { s with dev := d } ∧
      stored (addElems q.atype (n / atypeSize q.atype) (old n) q.data) d ∧ answered q .ack 0 [] s.dev d) ∧
    (q.op = .cas → free 8 → stitchKey k s.dev = false → anyPoison k 8 s.dev = false → ∃ d, exec (.casReceive a) s = .next { s with dev := d } ∧
      stored (if old 8 = q.data.take 8 then (q.data.drop 8).take 8 else []) d ∧ answered q .casOld 0 (old 8) s.dev d) ∧
    (q.op = .flagAdd → stitchKey k s.dev = false → anyPoison k 8 s.dev = false → ∃ d, exec (.flagAddReceive a) s = .next { s with dev := d } ∧
      stored (toBytes 8 ((memNat k 8 s.dev + ofBytes (q.data.take 8)) % 2 ^ 64)) d ∧ answered q .ack 0 [] s.dev d)

/-- What a request from a unit of the device meets otherwise (R187, R200, R235, R250, R287, R297, R392): it is refused with the reason, and memory
stays; a memory that performs no operation holds it in its turn. -/
def Obligations.RequestsRefused : Prop :=
  ∀ (s : State) (a : Arrival) (i : Instr), a.link = none → s.dev.flaws = [] →
    (i, a.pkt.op) ∈ [(Instr.putReceive a, Op.put), (.getReceive a [], .get), (.addReceive a, .add), (.casReceive a, .cas), (.flagAddReceive a, .flagAdd),
      (.putNotifyReceive a, .putNotify)] →
    let q := a.pkt
    let n := if q.op = .cas then 8 else q.data.length
    let refused (reason : Nat) : Prop := ∃ d, exec i s = .next { s with dev := d } ∧ answered q .nack reason [] s.dev d ∧ ∀ x, memRd d x = memRd s.dev x
    (rowRefused a s.dev = true → refused nkAddress) ∧
    (rowRefused a s.dev = false → arrSpot a s.dev = .absent → refused nkAbsent) ∧
    (∀ k, rowRefused a s.dev = false → arrSpot a s.dev = .mem k →
      let b := keyBlk k s.dev
      let port := portAnswer (servedAt a b s.dev) (.mem k) (reqLen q) s.dev
      (∀ reason, port = some reason → s.dev.net.arrived.contains a = false → refused reason) ∧
      (s.dev.net.arrived.contains a = true → (∃ b ∈ spotBlks (.mem k) (reqLen q) s.dev, holdsReq b false s.dev = true ∨ waitsBehind a b s.dev = true) →
        exec i s = .next { s with dev := { s.dev with net := { s.dev.net with
          memHeld := if s.dev.net.memHeld.contains a then s.dev.net.memHeld else s.dev.net.memHeld ++ [a] } } }) ∧
      (atMemory a k s.dev → q.op ≠ .get → q.op ≠ .flagAdd → windowBars a k n s.dev = true → refused nkPerm) ∧
      (atMemory a k s.dev → q.op ≠ .get → q.op ≠ .add → windowBars a k n s.dev = false → stitchKey k s.dev = true → refused nkAddress) ∧
      (atMemory a k s.dev → q.op = .cas ∨ q.op = .flagAdd ∨ q.op = .add → windowBars a k n s.dev = false → (q.op ≠ .add → stitchKey k s.dev = false) →
        anyPoison k (if q.op = .flagAdd then 8 else n) s.dev = true → refused nkEcc))

/-- A response frees its request and completes it at its issuer (R243, R245, R297, R298): an acknowledged PUT and the data of a GET end the tack
unit's slot, whose flag advances; a NACK ends it without; a response that no request waits for is dropped. -/
def Obligations.Responses : Prop :=
  ∀ (s : State) (p : Packet), s.dev.runs = [] →
    let freed (r : Req) (d : Dev) : Prop := d.net.reqs = s.dev.net.reqs.filter fun x => x.tag != r.tag
    (∀ i, (i, p.op) ∈ [(Instr.ackReceive p, Op.ack), (.dataReceive p, .data), (.casOldReceive p, .casOld), (.nackReceive p, .nack)] →
      ((takeReq p s.dev).1 = none → exec i s = .next { s with dev := takePacket p s.dev }) ∧
      (∀ r, (takeReq p s.dev).1 = some r → r.by_ = .mgmt → r.flow = none → issuerShut p s.dev = false → ∃ d, exec i s = .next { s with dev := d } ∧
        freed r d ∧ { s.dev with net := d.net } = d)) ∧
    (∀ r c k j, (takeReq p s.dev).1 = some r → r.by_ = .tack c k → r.flow = none → issuerShut p s.dev = false → getJob k (getCore c s.dev) = some j →
      coreOk c = true → steady [.lmm c, flagBlk (coreCtx c s.dev)] s.dev →
      let ctx := coreCtx c s.dev
      let closed (d : Dev) : Prop := freed r d ∧ ((getCore c d).jobs.all fun x => x.id != k || decide (x.phase = .done)) = true
      let flagged (counts : Bool) (f : Nat) (d : Dev) : Prop :=
        flagVal ctx f d = (flagVal ctx f s.dev + b2n (counts && flagOpen ctx f s.dev)) % 2 ^ 64
      (∀ a loc len fe nt f, p.op = .ack → j.work = .tackPut a loc len fe nt f → ∃ d, exec (.ackReceive p) s = .next { s with dev := d } ∧ closed d ∧
        flagged (fe && !(nt && p.flow)) f d ∧ memKeptFlag 0 0 ctx f s.dev d) ∧
      (∀ a loc len fe f, p.op = .data → j.work = .tackGet a loc len fe f → loc + len ≤ lmSize c → ∃ d, exec (.dataReceive p) s = .next { s with dev := d } ∧
        closed d ∧ flagged fe f d ∧ (∀ i, i < len → i < p.data.length → memRd d (keyLoc c (loc + i)) = p.data.getD i 0) ∧
        memKeptFlag (keyLoc c loc) len ctx f s.dev d) ∧
      (p.op = .nack → ∃ d, exec (.nackReceive p) s = .next { s with dev := d } ∧ closed d ∧ (∀ x, memRd d x = memRd s.dev x) ∧
        ((getCore c d).upds.all fun u => u.word != j.word || !u.done || u.withheld) = true ∧
        (p.aux0 ≠ nkAbsent → d.regs = s.dev.regs) ∧
        (p.aux0 = nkAbsent → faultValid (.seq c) d = true ∧ (faultValid (.seq c) s.dev = false → j.stream < 16 → j.slot < 16 →
          rd (.seq c) SEQ_ABS d = j.stream + j.slot * 16 ∧ rd64 (.seq c) SEQ_ABS_ADDR_LO d = r.addr % 2 ^ 64))))

/-! ### Links (R301 to R330, R364 to R366) -/

/-- A packet whose fields have their widths, which its class may carry, and whose payload is as long as its header says (R308, R309). -/
def Sys2Proof.Machine.wireOk (q : Packet) : Prop :=
  q.cls < 8 ∧ q.sub < 2 ∧ q.addr < 2 ^ 64 ∧ q.srcDev < 2 ^ 15 ∧ q.dstFlow < 2 ^ 14 ∧ q.srcFlow < 2 ^ 14 ∧ q.seq < 2 ^ 16 ∧ q.atype < 5 ∧ q.bank < 2 ∧
  q.len < 2 ^ 13 ∧ q.total < 2 ^ 48 ∧ q.aux0 < 2 ^ 16 ∧ q.aux1 < 2 ^ 32 ∧ q.data.length = payloadLen q.op q.len ∧ q.poison.length = flits q ∧
  q.bad = false ∧ q.flow = true ∧ q.tag = 0 ∧ q.merged = [] ∧ opInClass q = true ∧ crosses q = false ∧ (∀ c, q.op ≠ .reserved c) ∧
  ¬ (q.op = .add ∧ q.cls = clRed ∧ q.atype = 4)

/-- The data units that carry a packet over a link spell exactly that packet again, without a malformed header (R306, R308, R309, R322). -/
def Obligations.PacketsOnTheWire : Prop := ∀ q : Packet, wireOk q → receivePacket (unitsOf q) = (q, false)

/-- States of a link (R303, R325, R326): a trained link whose peer is the one the torus says is UP and replays, another is MISWIRED; a link that loses
lock, or is told to, retrains, and one that does not get through trains anew and then is DOWN. Traffic of a link (R306, R307, R311, R312): a
reservation is granted where its packet has room; a packet starts where credits cover it; blocks go out in sequence, replays first, once the block
being built has gone; a good block
in sequence is accepted and acknowledges others, a bad one has a replay requested. -/
def Obligations.Links : Prop :=
  (∀ (s : State) (org : Org) (l : Nat), l < 32 →
    let b := lnkBlk l
    let x := getLink l s.dev
    let again (d : Dev) : Prop := linkState l d = 4 ∧ rdBit b R_EVENT 8 d = true ∧ (getLink l d).tx = [] ∧ (getLink l d).coming = [] ∧
      d.net.resv.length = s.dev.net.resv.length + x.tx.length + x.coming.length ∧ d.mem = s.dev.mem ∧ d.cores = s.dev.cores
    (∀ dev pl torus delay, (linkState l s.dev = 2 ∨ linkState l s.dev = 4) → devValid s.dev = true → linkPresent l s.dev = true → rdBit b LNK_CFG 0 s.dev = true →
      let match_ := dev = neighbourDev l s.dev ∧ pl = partner l ∧ torus = rdF .glb GLB_TORUS 0 10 s.dev
      let peer := dev % 32768 + pl % 32 * 65536 + 2 ^ 31
      (match_ → ∃ d, exec (.linkTrained l dev pl torus delay) s = .next { s with dev := d } ∧ linkState l d = 3 ∧ rd b LNK_PEER d = peer ∧
        (getLink l d).delay = delay ∧ (x.credit = [] → (getLink l d).credit = fullCredit) ∧ (x.credit ≠ [] → (getLink l d).replay = x.retry) ∧
        d.mem = s.dev.mem ∧ d.cores = s.dev.cores) ∧
      (¬ match_ → ∃ d, exec (.linkTrained l dev pl torus delay) s = .next { s with dev := d } ∧ linkState l d = 6 ∧ rd b LNK_PEER d = peer ∧
        faultValid b d = true ∧ (getLink l d).credit = [] ∧ (getLink l d).retry = [] ∧ d.mem = s.dev.mem ∧ d.cores = s.dev.cores)) ∧
    (linkUp l s.dev = true → ∃ d, exec (.laneLockLoss l) s = .next { s with dev := d } ∧ again d) ∧
    (linkUp l s.dev = false → exec (.laneLockLoss l) s = .next s) ∧
    (∀ val, val < 2 ^ 32 → writable org b LNK_CTL (val ||| 1) s.dev →
      (linkUp l s.dev = true → ∃ d, exec (.lnkRetrain org l val) s = .next { s with dev := d } ∧ again d) ∧
      (linkUp l s.dev = false → ∃ d, exec (.lnkRetrain org l val) s = .next { s with dev := d } ∧ onlyLogged [regKey b LNK_CTL] s.dev d)) ∧
    (linkState l s.dev = 4 → ∃ d, exec (.retrainTimeout l) s = .next { s with dev := d } ∧ linkState l d = 2 ∧ rdBit b R_EVENT 8 d = true ∧
      onlyRegs [regKey b LNK_STATE, regKey b R_EVENT, regKey .rst RST_BOOT] s.dev d) ∧
    (linkState l s.dev ≠ 4 → exec (.retrainTimeout l) s = .next s) ∧
    (linkState l s.dev = 2 → ∃ d, exec (.trainingTimeout l) s = .next { s with dev := d } ∧ linkState l d = 1 ∧ faultValid b d = true ∧
      (getLink l d).retry = [] ∧ (getLink l d).units = [] ∧ d.mem = s.dev.mem ∧ d.cores = s.dev.cores) ∧
    (linkState l s.dev ≠ 2 → exec (.trainingTimeout l) s = .next s)) ∧
  (∀ (s : State) (l : Nat), l < 32 →
    let x := getLink l s.dev
    let b := lnkBlk l
    let others (d : Dev) : Prop := (∀ k, k ≠ l → getLink k d = getLink k s.dev) ∧ d.mem = s.dev.mem ∧ d.cores = s.dev.cores
    (∀ r, linkGrants l s.dev = true → nextResv l s.dev = some r → r.from_ = none → s.dev.net.holding = none →
      let q := resvPkt r s.dev
      let e : TxEnt := { pkt := q, ded := (txCharge q x).1, shr := (txCharge q x).2, hop := r.hop }
      ∃ d m, exec (.txReservation l) s = .next { s with dev := d } ∧ d.net.resv = s.dev.net.resv.erase r ∧ (getLink l d).coming = x.coming ++ [e] ∧
        d.net.mesh = s.dev.net.mesh ++ [m] ∧ m.at_ = r.entry ∧ m.dst = lnkAt l ∧ m.goal = .link l ∧ m.space = some e ∧ others d ∧ d.regs = s.dev.regs) ∧
    (linkGrants l s.dev = false ∨ nextResv l s.dev = none → exec (.txReservation l) s = .next s) ∧
    (linkUp l s.dev = true →
      (∀ e, (heads x.tx []).find? (fun t => mayStart x t.pkt) = some e → let q := e.pkt
        ∃ d, exec (.packetTransmit l) s = .next { s with dev := d } ∧ others d ∧ d.regs = s.dev.regs ∧ (getLink l d).tx = x.tx.erase e ∧ (getLink l d).units = x.units ++ unitsOf q ∧
        (vcOf q < 12 → isRedVc (vcOf q) = false → x.credit.length = 13 → credits (vcOf q) (getLink l d) + (unitsOf q).length = credits (vcOf q) x)) ∧
      ((heads x.tx []).find? (fun t => mayStart x t.pkt) = none → exec (.packetTransmit l) s = .next s) ∧
      (∀ k rest, x.replay = k :: rest → (x.finish && decide (x.retry.length < 128)) = false → ∃ d k', exec (.blockSend l) s = .next { s with dev := d } ∧ d.out = .block l k' :: s.dev.out ∧
        k'.units = k.units ∧ k'.bseq = k.bseq ∧ k'.replay = true ∧ k'.crc = Config.blockCrc (blockBytes k') ∧ (getLink l d).replay = rest ∧
        rd b LNK_RETRY d = (rd b LNK_RETRY s.dev + 1) % 2 ^ 32 ∧ others d) ∧
      (x.replay = [] ∨ x.finish = true → x.retry.length < 128 → ∃ d k, exec (.blockSend l) s = .next { s with dev := d } ∧ d.out = .block l k :: s.dev.out ∧
        k.units.take 64 = (x.units ++ List.replicate 64 ({} : DataUnit)).take 64 ∧ k.bseq = x.bseq ∧ k.ack = (x.expect + 65535) % 65536 ∧
        k.crc = Config.blockCrc (blockBytes k) ∧ (getLink l d).retry = x.retry ++ [k] ∧ (getLink l d).replay = (if x.finish then x.replay ++ [k] else []) ∧ (getLink l d).bseq = (x.bseq + 1) % 65536 ∧
        (getLink l d).units = x.units.drop 64 ∧ d.regs = s.dev.regs ∧ others d) ∧
      (∀ k (fec : FecCount) fecOk, let good := fecOk && decide (k.crc = Config.blockCrc (blockBytes k)) && k.bseq == x.expect
        (good = true → k.units.all (fun u => !u.valid) = true → ∃ d, exec (.linkBlockReceive l k fec fecOk) s = .next { s with dev := d } ∧ others d ∧
          (getLink l d).expect = (x.expect + 1) % 65536 ∧ (getLink l d).wantRetry = false ∧ (getLink l d).retry = ackUpTo k.ack x.retry ∧
          rd64 b LNK_FEC_CORR_LO d = (rd64 b LNK_FEC_CORR_LO s.dev + fec.corrected) % 2 ^ 64 ∧ rd b LNK_FEC_UNC d = (rd b LNK_FEC_UNC s.dev + fec.uncorr) % 2 ^ 32) ∧
        (good = false → x.asked + 1 < rdF b LNK_CFG 8 8 s.dev → ∃ d, exec (.linkBlockReceive l k fec fecOk) s = .next { s with dev := d } ∧ others d ∧
          (getLink l d).expect = x.expect ∧ (getLink l d).wantRetry = true ∧ (getLink l d).retry = x.retry ∧
          rd b LNK_FEC_UNC d = (rd b LNK_FEC_UNC s.dev + fec.uncorr) % 2 ^ 32))))

/-- Nothing waits for a window to open: no stream engine has a transfer, and no multicast group a transfer that has not asked. -/
def Sys2Proof.Machine.noneWait (d : Dev) : Prop := (∀ e ∈ d.net.engines, e.2.xfers = []) ∧ ∀ g ∈ d.net.groups, g.todo = [] ∨ g.asked = true

/-- Flows (R317, R318, R324, R329): the end of a window takes back the counts of violations, a release ends a quarantine, and a flow without progress
loses its peer and its requests. -/
def Obligations.FlowCare : Prop :=
  ∀ (s : State) (org : Org) (l val f : Nat), l < 32 → val < 2 ^ 32 →
    (Sparse.wf flowInit s.dev.net.flows = true → ∃ d, exec (.violationWindowEnd l) s = .next { s with dev := d } ∧ rdF (lnkBlk l) LNK_VWIN 0 16 d = 0 ∧
      (∀ k, getFlow k d = { getFlow k s.dev with viol := 0 }) ∧ onlyRegs [regKey (lnkBlk l) LNK_VWIN] { s.dev with net := d.net } d) ∧
    (writable org .fab FAB_FLOW_CTL (val ||| 1) s.dev → rdF .fab FAB_FLOW_SEL 0 14 s.dev = f → ∃ d, exec (.flowRelease org val) s = .next { s with dev := d } ∧
      flowQuar f d = false ∧ (getFlow f d).viol = 0 ∧ rdB .fab FAB_FLOW f d = putBits (rdB .fab FAB_FLOW f s.dev) 7 1 0 ∧
      (∀ k, k ≠ f → getFlow k d = getFlow k s.dev) ∧ onlyLogged [regKey .fab FAB_FLOW_CTL, bankKey .fab FAB_FLOW f] { s.dev with net := d.net } d) ∧
    (s.dev.runs = [] → (getFlow f s.dev).held = [] → noneWait s.dev → (∀ r ∈ s.dev.net.reqs, r.flow = some f → r.by_ = .mgmt) →
      ((s.dev.net.reqs.any fun r => r.flow == some f) = true → ∃ d, exec (.flowNoprogress f) s = .next { s with dev := d } ∧ faultValid .fab d = true ∧
        (faultValid .fab s.dev = false → rd .fab FAB_LOST d = (peerDev f s.dev + flowCtx f s.dev * 65536) % 2 ^ 32) ∧
        (∀ r ∈ d.net.reqs, r.flow ≠ some f) ∧ onlyRegs [regKey .fab R_FAULT, regKey .fab FAB_LOST] { s.dev with net := d.net } d) ∧
      ((s.dev.net.reqs.any fun r => r.flow == some f) = false → exec (.flowNoprogress f) s = .next s))

/-! ### Multicast (R319 to R321) -/

/-- A member grants its window to a reservation, or lets it wait while another holds it (R320 rule 2); the source collects the grants, asks again and
reports a hold (rules 3 and 5), and sends the data down the tree when all are there (rule 4); a member stores the data, counts it and answers. -/
def Obligations.Multicast : Prop :=
  ∀ s : State,
    (∀ (p : Packet) (g : GroupSt) (m : Nat × Nat × Nat), findGroup p.aux0 p.srcDev s.dev = some g → ownMember g s.dev = some m →
      let q := onMember m p s.dev
      let here (d : Dev) := findGroup p.aux0 p.srcDev d
      let a := m.2.1 + bits p.addr 0 46
      let left := g.left - p.data.length
      let nacks := regKey (posBlk (mcastPos g p mgmtPos s.dev)) MSH_NACK
      (regionFenced g.ctx m.2.1 s.dev = false → g.reserved = false ∨ g.seq = p.seq → ∃ d, exec (.mcReserveReceive p) s = .next { s with dev := d } ∧
        here d = some { g with reserved := true, seq := p.seq, left := p.len + 1 } ∧ answered q .mcGrant g.n [] s.dev d ∧ { s.dev with net := d.net } = d) ∧
      (regionFenced g.ctx m.2.1 s.dev = false → g.reserved = true → g.seq ≠ p.seq → ∃ d, exec (.mcReserveReceive p) s = .next { s with dev := d } ∧
        here d = some { g with waiting := some p } ∧ d.net.mesh = s.dev.net.mesh ∧ d.net.resv = s.dev.net.resv ∧ { s.dev with net := d.net } = d) ∧
      (regionFenced g.ctx m.2.1 s.dev = true → ∃ d, exec (.mcReserveReceive p) s = .next { s with dev := d } ∧ here d = some g ∧
        answered q .nack nkTargetReset [] s.dev d ∧ onlyRegs [nacks] { s.dev with net := d.net } d) ∧
      (∀ k, s.dev.runs = [] → p.op = .mcData → g.waiting = none → regionReset g.ctx m.2.1 s.dev = false → spotOf g.ctx a s.dev = .mem k → s.dev.flaws = [] →
        (mcStore g.ctx m.2.1 (bits p.addr 0 46) p.data p.poison s.dev).isSome = true → (getFlow m.2.2 s.dev).totals = [] →
        mcBarred g.ctx m.2.1 (bits p.addr 0 46) p.data.length s.dev = false → (∀ i, keyFailed (k + i) s.dev = false) → ∃ d, exec (.mcDataReceive p) s = .next { s with dev := d } ∧ 
          here d = some { g with reserved := g.reserved && decide (0 < left), left := left } ∧
          (∀ i, i < p.data.length → memRd d (k + i) = p.data.getD i 0) ∧ memKept k p.data.length s.dev d ∧ answered q .ack 0 [] s.dev d ∧
          rdB64 .fab FAB_FLOW_LANDED_LO m.2.2 d = (rdB64 .fab FAB_FLOW_LANDED_LO m.2.2 s.dev + p.data.length) % 2 ^ 48) ∧
      (s.dev.runs = [] → p.op = .mcData → g.waiting = none → regionReset g.ctx m.2.1 s.dev = true → ∃ d, exec (.mcDataReceive p) s = .next { s with dev := d } ∧
        answered q .nack nkTargetReset [] s.dev d ∧ onlyRegs [nacks] { s.dev with net := d.net } d) ∧
      (s.dev.runs = [] → p.op = .mcData → g.waiting = none → regionReset g.ctx m.2.1 s.dev = false →
        mcBarred g.ctx m.2.1 (bits p.addr 0 46) p.data.length s.dev = true → ∃ d, exec (.mcDataReceive p) s = .next { s with dev := d } ∧
        answered q .nack nkPerm [] s.dev d ∧ { s.dev with net := d.net } = d)) ∧
    (∀ (n : Nat) (g : GroupSt), ownGroup n s.dev = some g →
      (∀ p r k, p.op = .mcGrant → (takeReq p s.dev).1 = some r → r.by_ = .mcast n k → r.op = .mcReserve → issuerShut p s.dev = false → s.dev.runs = [] →
        (∀ f, r.flow = some f → (getFlow f s.dev).held = []) → noneWait s.dev →
        let g' := { g with granted := if g.granted.contains k then g.granted else g.granted ++ [k] }
        ∃ d, exec (.mcGrantReceive p) s = .next { s with dev := d } ∧ ownGroup n d = some g' ∧
          d.net.reqs = s.dev.net.reqs.filter (fun x => x.tag != r.tag) ∧
          bit (rdB .fab FAB_MC n d) 1 = (bit (rdB .fab FAB_MC n s.dev) 1 && !allGranted g' s.dev) ∧ onlyRegs [bankKey .fab FAB_MC n] { s.dev with net := d.net } d) ∧
      (∀ x rest, g.todo = x :: rest → g.asked = true → g.injected = false → allGranted g s.dev = false → ∃ d,
        exec (.mcReserveResend n) s = .next { s with dev := d } ∧ ownGroup n d = some { g with held := true } ∧ d.mem = s.dev.mem ∧
        (g.held = false → bit (rdB .fab FAB_MC n d) 1 = true ∧ faultValid .fab d = true ∧
          rd .fab FAB_MCHOLD d = (rd .fab FAB_MCHOLD s.dev + 1) % 2 ^ 32) ∧
        ∀ k h, k ∈ farMembers g s.dev → g.granted.contains k.2 = false → mcRuns x s.dev = true →
          (s.dev.net.reqs.any fun r => decide (r.by_ = .mcast n k.2)) = true ∨ canEmit k.1.2.2 0 s.dev = true → treeHop k.1.1 s.dev = some h → ∃ r ∈ d.net.resv, r.pkt.op = .mcReserve ∧
          r.pkt.aux0 = n ∧ r.pkt.seq = g.seq ∧ r.hop = some (h.1, h.2.1)) ∧
      (∀ x rest, g.todo = x :: rest → g.asked = true → g.injected = false → allGranted g s.dev = true → mcRuns x s.dev = true →
        ((farMembers g s.dev).all fun m => canEmit m.1.2.2 x.data.length s.dev) = true → ∃ d, exec (.mcDataInject n) s = .next { s with dev := d } ∧
        ownGroup n d = some { g with injected := true } ∧ (∀ k ∈ farMembers g s.dev, ∃ r ∈ d.net.reqs, r.by_ = .mcast n k.2 ∧ r.op = .mcData) ∧
        (∀ k h, k ∈ farMembers g s.dev → treeHop k.1.1 s.dev = some h → ∃ r ∈ d.net.resv, r.pkt.op = .mcData ∧ r.pkt.data = x.data ∧ r.hop = some (h.1, h.2.1)) ∧
        ∀ b k, ownBase g s.dev = some b → spotOf g.ctx (b + x.off) s.dev = .mem k → (mcStore g.ctx b x.off x.data [] s.dev).isSome = true →
          (∀ i, keyFailed (k + i) s.dev = false) → s.dev.flaws = [] →
          (∀ i, i < x.data.length → memRd d (k + i) = x.data.getD i 0) ∧ memKept k x.data.length s.dev d))

/-! ### The Press (R355 to R400) -/

/-- A use is widened and added to its owner's accumulator and its buffer is freed (R362); an owner rounds its range into OUT and clears what it has
rounded (R367, R368). Here for entries that are not sliced over an axis; the verdict is contributed and, at the root, told (R369, R370). -/
def Obligations.PressReduction : Prop :=
  ∀ (s : State) (ctx : Nat) (p : PressSt), ctx < 64 → getPress ctx s.dev = some p → sound s.dev →
    (∀ e b st g m k, useReady ctx p e s.dev = some (b, st) → pressRuns (e % 4) s.dev = true → b.en1 = false → 0 < b.n → b.n ≤ 102 →
      redGroup ctx b.group s.dev = some g → redMember g (ownDev s.dev) = some m → spotOf ctx b.src s.dev = .mem k →
      memOk b.src (2 * b.n) s.dev = true → gSpace b.src = 0 → flagOpen ctx b.freeFlag s.dev = true →
      let a := m.2.1 + b.accOff
      canSend (some m.2.2) a (40 * b.n) s.dev → ∃ d, exec (.pressUseSend ctx e) s = .next { s with dev := d } ∧
        sentReq (.press ctx e .contrib) .add a ((List.range b.n).flatMap fun i => (Esf.widen (memNat (k + 2 * i) 2 s.dev)).bytes) s.dev d ∧
        ((getPress ctx d).bind fun p => (p.st[e]?).map (·.sending)) = some true ∧
        flagVal ctx b.freeFlag d = (flagVal ctx b.freeFlag s.dev + 1) % 2 ^ 64 ∧ memKeptFlag 0 0 ctx b.freeFlag s.dev d) ∧
    (∀ e b sh st g m out (acc : Nat → Nat), p.ents[e]? = some (b, sh) → p.st[e]? = some st → st.stopped = false → st.parted = false → pressRuns (e % 4) s.dev = true →
      b.en1 = false → b.en2 = false → redGroup ctx b.group s.dev = some g → redMember g (ownDev s.dev) = some m → ownGroup g.mc s.dev = none →
      flagReached ctx b.arrive1 ((st.step + 1) * b.uses) s.dev = true → spotOf ctx b.out s.dev = .mem out →
      memOk b.out (2 * b.n) s.dev = true → (∀ i, i < b.n → memOk (m.2.1 + accPlace b.accOff i) 40 s.dev = true ∧ spotOf ctx (m.2.1 + accPlace b.accOff i) s.dev = .mem (acc i) ∧ anyPoison (acc i) 40 s.dev = false ∧
        ∀ j, j < 2 * b.n → ¬ (acc i ≤ out + j ∧ out + j < acc i + 40)) → ∃ d, exec (.pressOwnerRound ctx e) s = .next { s with dev := d } ∧
      (∀ i, i < b.n → memNat (out + 2 * i) 2 d = (Esf.ofBytes (memBytes (acc i) 40 s.dev)).round % 2 ^ 16) ∧
      (∀ i j, i < b.n → j < 40 → memRd d (acc i + j) = 0) ∧ ((getPress ctx d).bind fun p => (p.st[e]?).map (·.step)) = some (st.step + 1) ∧
      ∀ x, ¬ (out ≤ x ∧ x < out + 2 * b.n) → (∀ i, i < b.n → ¬ (acc i ≤ x ∧ x < acc i + 40)) → memRd d x = memRd s.dev x) ∧
    (let a := prs64 ctx PRS_VWORD_LO s.dev
     let flow := ((redGroup ctx (prsR ctx PRS_VGRP s.dev % 1024) s.dev).bind fun g => redMember g (gDev a)).map (·.2.2)
     pressRuns 0 s.dev = true → (p.st.all fun x => decide (p.voted < x.step)) = true → addrOk a s.dev = true → addrOk (a + 7) s.dev = true → gSpace a ≤ 2 →
       canSend flow a 8 s.dev → ∃ d,
       exec (.verdictContribute ctx) s = .next { s with dev := d } ∧
       sentReq (.press ctx 0 .verdict) .add a (toBytes 8 (b2n (p.nonfin.contains p.voted))) s.dev d ∧
       (getPress ctx d).map (·.voted) = some (p.voted + 1) ∧ d.mem = s.dev.mem) ∧
    (let a := prs64 ctx PRS_VWORD_LO s.dev
     let f := bits (prsR ctx PRS_VFLAGS s.dev) 16 14
     ∀ k, gDev a = ownDev s.dev → pressRuns 0 s.dev = true → flagReached ctx f ((p.told + 1) * (prsR ctx PRS_VDEV s.dev % 32768 + 1)) s.dev = true →
       spotOf ctx a s.dev = .mem k → anyPoison k 8 s.dev = false → ownGroup (bits (prsR ctx PRS_VGRP s.dev) 16 10) s.dev = none →
       let diff := (memNat k 8 s.dev + 2 ^ 64 - prs64 ctx PRS_VPREV_LO s.dev) % 2 ^ 64
       let fl := flagAddr (ownDev s.dev) ctx (bits (prsR ctx PRS_VFLAGS s.dev) 0 14)
       canSend none fl 8 s.dev → ∃ d, exec (.verdictBroadcast ctx) s = .next { s with dev := d } ∧ prs64 ctx PRS_VPREV_LO d = memNat k 8 s.dev ∧
         (getPress ctx d).map (fun p => (p.told, p.verdict)) = some (p.told + 1, diff) ∧
         sentReq (.press ctx 0 .verdictFlag) .flagAdd fl (toBytes 8 1) s.dev d ∧ ∀ x, memRd d x = memRd s.dev x)

/-- The fence commits an entry into the other slot, or copies it on a bad verdict (R376, R377); the next Stitch takes the step on and moves the loss
scale (R378, R393). Here for a table of one entry. -/
def Obligations.PressCommit : Prop :=
  ∀ (s : State) (ctx : Nat) (p : PressSt) (b : BktEnt) (sh : ShdEnt), ctx < 64 → s.dev.press = [(ctx, p)] → p.ents = [(b, sh)] → sound s.dev → allPressRun s.dev = true →
    let n := prsStep ctx s.dev
    let k := slotOfStep n
    let skip := verdictHere ctx p s.dev != 0
    let bytes (a m : Nat) := (readRegion ctx a m s.dev).2.1
    let consts := bytes (prs64 ctx PRS_RCP_LO s.dev + 1024) 256
    let cs := (List.range 64).map fun i => ofBytes ((consts.drop (4 * i)).take 4)
    let inputs := regionsAt b sh k
    let part (on : Bool) (base size : Nat) := if on then bytes (slotAddr base sh.sstride k) size else []
    let result := if skip then inputs.map fun r => bytes r.1 r.2 else
      (runEntry ctx n b sh ((recipeBody ((p.recipes[sh.recipe]?).getD [])).getD []) ((cs.drop (16 * sh.recipe)).take 16)
        (((List.range 64).map fun i => trkExp (rdKey s.dev (trkCfg i)))[sh.trk]?.getD 0) (bytes b.out (2 * b.n)) (bytes (slotAddr sh.master sh.sstride k) (masterSize b.n))
        (part sh.momEn sh.mom (momSize b.n)) (part sh.varEn sh.var (momSize b.n)) s.dev).1
    let places := (regionsAt b sh (1 - k)).zip result
    (∀ key : Nat → Nat, fenceReady ctx p s.dev = true →
      (∀ r ∈ (b.out, 2 * b.n) :: (prs64 ctx PRS_RCP_LO s.dev + 1024, 256) :: inputs, spotOf ctx r.1 s.dev = .mem (key r.1) ∧ (readRegion ctx r.1 r.2 s.dev).2.2 = none) →
      (∀ r ∈ places, memOk r.1.1 r.2.length s.dev = true ∧ spotOf ctx r.1.1 s.dev = .mem (key r.1.1) ∧
        (∀ i ∈ inputs, key r.1.1 + r.2.length ≤ key i.1 ∨ key i.1 + i.2 ≤ key r.1.1) ∧
        ∀ q ∈ places, q ≠ r → key r.1.1 + r.2.length ≤ key q.1.1 ∨ key q.1.1 + q.2.length ≤ key r.1.1) → ∃ d,
      exec (.pressFence ctx) s = .next { s with dev := d } ∧ (∀ r ∈ places, ∀ i, i < r.2.length → memRd d (key r.1.1 + i) = r.2.getD i 0) ∧
      (∀ x, (∀ r ∈ places, ¬ (key r.1.1 ≤ x ∧ x < key r.1.1 + r.2.length)) → memRd d x = memRd s.dev x) ∧
      (getPress ctx d).map (fun p => (p.committed, p.skipped)) = some (true, skip) ∧ bits (prsR ctx PRS_CTL d) 4 3 = 2 ∧
      prsR ctx (if k = 0 then PRS_TAG1 else PRS_TAG0) d = noTag ∧ (skip = true → faultValid prs0 d = true) ∧
      ∀ q, q < 4 → rd (.prs q) PRS_COMMITS d = (rd (.prs q) PRS_COMMITS s.dev + 1) % 2 ^ 32) ∧
    (let cfg := prsR ctx PRS_LSCFG s.dev
     let ls := prsR ctx PRS_LS s.dev
     let exp := signed 8 (bits ls 0 8)
     let good := (bits ls 8 16 + 1) % 65536
     let f := bits (prsR ctx PRS_FLAGS s.dev) 16 14
     calm { s.dev with press := [] } → s.dev.tck.armed = [] → s.dev.tck.seams = [] → rd64 .tck TCK_FRAME_EN_LO s.dev = 0 → p.committed = true → p.recorded = [] →
     p.st.any (·.stopped) = false → bit (prsR ctx PRS_DG_CFG s.dev) 3 = false → flagOpen ctx f s.dev = true → ∃ d, exec .stitch s = .next { s with dev := d } ∧
       stitchNum d = (stitchNum s.dev + 1) % 2 ^ 64 ∧ prsStep ctx d = (n + 1) % 2 ^ 64 ∧ bits (prsR ctx PRS_CTL d) 4 3 = 1 ∧
       prsR ctx (if slotOfStep (n + 1) = 0 then PRS_TAG0 else PRS_TAG1) d = stepTag (n + 1) ∧
       flagVal ctx f d = (flagVal ctx f s.dev + 1) % 2 ^ 64 ∧ memKeptFlag 0 0 ctx f s.dev d ∧ d.press = [(ctx, { p with committed := false })] ∧
       (p.skipped = true → prsR ctx PRS_LS d = wrap 8 (max (exp - (bits cfg 16 4 : Int)) (signed 8 (bits cfg 0 8)))) ∧
       (p.skipped = false → bits cfg 20 12 ≠ 0 → good = bits cfg 20 12 → prsR ctx PRS_LS d = wrap 8 (min (exp + 1) (signed 8 (bits cfg 8 8)))) ∧
       (p.skipped = false → bits cfg 20 12 = 0 ∨ good ≠ bits cfg 20 12 → prsR ctx PRS_LS d = wrap 8 exp + good * 256))

/-- ENABLE reads the tables, and refuses them or takes them into service (R374, R389); digests are compared with those of the neighbour (R395, R396);
and a tracker of the Press advances (R399). -/
def Obligations.PressControl : Prop :=
  ∀ (s : State) (org : Org) (val : Nat), val < 2 ^ 32 →
    (let ctx := rdF prs0 PRS_CTX_SEL 0 6 s.dev
     let ents := readTables ctx s.dev
     let rs := readRecipes ctx s.dev
     let n := prsStep ctx s.dev
     writable org prs0 PRS_CTL (val ||| 1) s.dev → bit (prsR ctx PRS_CTL s.dev) 0 = false → s.dev.flaws = [] →
       (tablesBad ctx ents rs s.dev = none → ∃ d, exec (.pressEnable org val) s = .next { s with dev := d } ∧ bit (prsR ctx PRS_CTL d) 0 = true ∧
         ((∀ x ∈ ents, recipePoison ctx x.2.recipe s.dev = none) → bits (prsR ctx PRS_CTL d) 4 3 = 1) ∧
         (getPress ctx d).map (fun p => (p.ents, p.recipes)) = some (ents, rs) ∧
         prsR ctx (if n % 2 = 0 then PRS_TAG0 else PRS_TAG1) d = stepTag n ∧ prsR ctx (if n % 2 = 0 then PRS_TAG1 else PRS_TAG0) d = noTag ∧ d.mem = s.dev.mem) ∧
       (∀ e, tablesBad ctx ents rs s.dev = some e → ∃ d, exec (.pressEnable org val) s = .next { s with dev := d } ∧ bit (prsR ctx PRS_CTL d) 0 = false ∧
         rdBit prs0 R_EVENT 9 d = true ∧ d.press = s.dev.press ∧ d.mem = s.dev.mem ∧
         (faultValid prs0 s.dev = false → e < 8192 → rd prs0 PRS_ERR d = 1 + ctx * 16 + e * 1024))) ∧
    (∀ ctx p die, ctx < 64 → die < 4 → getPress ctx s.dev = some p → p.compare.contains die = true → pressRuns die s.dev = true → s.dev.flaws = [] →
      let cfg := prsR ctx PRS_DG_CFG s.dev
      let n := prsStep ctx s.dev - 1
      let mine := p.digests.filter fun x => x.1 % 4 == die
      let differs (x : Nat × List Byte) : Bool := (readRegion ctx (prs64 ctx PRS_DG_LO s.dev + n % 2 * 0x40000 + 32 * x.1) 32 s.dev).2.1 != x.2
      flagReached ctx (bits cfg 4 14) (4 * (n + 1)) s.dev = true → ∃ d, exec (.digestCompare ctx die) s = .next { s with dev := d } ∧
        (getPress ctx d).map (·.compare) = some (p.compare.filter (· != die)) ∧ (∀ k, memRd d k = memRd s.dev k) ∧
        (p.compare.filter (· != die) = [] → p.st.any (·.stopped) = false → bits (prsR ctx PRS_CTL d) 4 3 = 1) ∧
        (mine.any differs = false → d.tck = s.dev.tck ∧ faultValid (.prs die) d = faultValid (.prs die) s.dev) ∧
        (mine.any differs = true → d.tck.stops = s.dev.tck.stops ++ [(ctx, 7)] ∧ faultValid (.prs die) d = true ∧
          (faultValid (.prs die) s.dev = false → rdF (.prs die) R_FAULT 0 16 d = cDigestMismatch))) ∧
    (writable org prs0 PRS_TRK_ADVANCE (val ||| 0x80000000) s.dev →
      let n := bits val 0 6
      let head := (bits (rdKey s.dev (trkCfg n)) 16 4 + 1) % 16
      let cur := rdKey s.dev (trkCur n)
      ∃ d, exec (.pressTrackerAdvance org 0 val) s = .next { s with dev := d } ∧ rdKey d (trkCur n) = 0 ∧ rdKey d (trkHist n head) = cur ∧
        rdKey d (trkCfg n) = advanceCfg (putBits (rdKey s.dev (trkCfg n)) 16 4 head)
          ((List.range 16).map fun i => if i = head then cur else rdKey s.dev (trkHist n i)) ∧
        onlyLogged [trkCfg n, trkCur n, trkHist n head] s.dev d)

/-! ### The Baste (R401 to R422) -/

/-- Only the SNP_CTL action bits in `acts` are written, and neither CAPTURE_EN nor PAR_EN is newly set (R403, R412). -/
def Sys2Proof.Machine.snpWrite (org : Org) (val acts : Nat) (d : Dev) : Prop :=
  let old := regVal snp0 SNP_CTL d
  val < 2 ^ 32 ∧ writable org snp0 SNP_CTL (val ||| acts) d ∧ val &&& 0x1F00 &&& (all32 - acts) = 0 ∧
    (bit val 0 = true → bit old 0 = true) ∧ bit val 2 = bit (snpR (rdF snp0 SNP_CTX_SEL 0 6 d) SNP_CTL d) 2 ∧ (bit val 2 = true → bit old 2 = true)

/-- A capture writes its record and holds the device's arrival until the mirrors are acknowledged (R402), or refuses one that does not fit (R403); a parity ring gathers each member's chunk
once (R413); a snapshot is refused, waits for its step, or leaves for the host, and ends when its last write has left (R415, R420). -/
def Obligations.CaptureAndSnapshots : Prop :=
  ∀ (s : State) (ctx : Nat),
    let x := getSnap ctx s.dev
    let waits := basteWaits ctx (fun o => decide (o = .mirror)) s.dev
    (x.capturing = false ∨ basteRuns s.dev = false → exec (.captureForward ctx) s = .next s) ∧
    (captureDue ctx s.dev = false → waits = true ∨ x.mirrorLost = true → exec (.captureForward ctx) s = .next s) ∧
    (x.capturing = true → basteRuns s.dev = true → captureDue ctx s.dev = false → waits = false → x.mirrorLost = false → ∃ d,
      exec (.captureForward ctx) s = .next { s with dev := d } ∧ getSnap ctx d = { x with capturing := false } ∧
      { s.dev with snap := d.snap, tck := { s.dev.tck with seams := d.tck.seams } } = d ∧
      (withheld ctx d = false → (getSeam ctx d).held = false ∧ (allArrived ctx s.dev = true → (getSeam ctx d).own.isSome = true))) ∧
    (∀ k, x.capturing = true → basteRuns s.dev = true → captureDue ctx s.dev = true → bits (snpR ctx SNP_CTL s.dev) 1 2 = 0 → sound s.dev → recordPoison ctx s.dev = none →
      let own := ownRec ctx (prsStep ctx s.dev) s.dev
      let r := record ctx (persistRanges ctx s.dev) s.dev
      spotOf ctx own s.dev = .mem k → memOk own r.length s.dev = true → r.length ≤ recSize → ∃ d, exec (.captureForward ctx) s = .next { s with dev := d } ∧ (∀ i, i < r.length → memRd d (k + i) = r.getD i 0) ∧ memKept k r.length s.dev d ∧
        getSnap ctx d = { x with recorded := some (prsStep ctx s.dev), pend := some (prsStep ctx s.dev), capturing := true, mirrorLost := false } ∧
        (getSeam ctx d).held = true ∧ bits (snpR ctx SNP_CTL d) 16 3 = 1) ∧
    (x.capturing = true → basteRuns s.dev = true → captureDue ctx s.dev = true → ctx < 64 → sound s.dev → recordPoison ctx s.dev = none →
      recSize < (record ctx (persistRanges ctx s.dev) s.dev).length → ∃ d, exec (.captureForward ctx) s = .next { s with dev := d } ∧
        bit (snpR ctx SNP_CTL d) 0 = false ∧ (faultValid snp0 s.dev = false → rd snp0 SNP_ERR d = 1 + ctx * 16) ∧ d.mem = s.dev.mem ∧ d.snap = s.dev.snap) ∧
    (∀ (g : GenSt) (j : Nat), x.gen = some g → basteRuns s.dev = true → j < 8 → j ≠ ringOwn ctx s.dev →
      let dev := ringMember ctx j s.dev
      let c := parLen ctx s.dev / 7
      let src := genCopy ctx g.buf s.dev + chunkOf j (ringOwn ctx s.dev) * c
      let published := readNat ctx (doneSlot ctx j false s.dev) 8 s.dev == g.step
      (g.asked.contains j = true ∨ published = false → exec (.parityGather ctx j) s = .next s) ∧
      (g.asked.contains j = false → g.lost ≠ some j → published = true → pieces src c = [(0, c)] →
        canSend (reqFlow ctx dev s.dev) (onDevice dev src) c s.dev → ∃ d, exec (.parityGather ctx j) s = .next { s with dev := d } ∧
        getSnap ctx d = { x with gen := some { g with asked := g.asked ++ [j] } } ∧
        sentReq (.baste ctx 0 (.chunk j) (genParity ctx g.buf s.dev)) .get (onDevice dev src) [] s.dev d ∧ d.mem = s.dev.mem)) ∧
    (let e := regKey snp0 R_EVENT
     (x.snap.isSome = true → x.snapSent = true → ∃ d, exec (.snapshotComplete ctx) s = .next { s with dev := d } ∧ rdBit snp0 R_EVENT 10 d = true ∧
       getSnap ctx d = { x with snap := none, snapSent := false } ∧ onlyRegs [e] { s.dev with snap := d.snap } d) ∧
     (x.snap = none ∨ x.snapSent = false → exec (.snapshotComplete ctx) s = .next s)) ∧
    (∀ org val, snpWrite org val 0x400 s.dev → ctx = rdF snp0 SNP_CTX_SEL 0 6 s.dev →
      let st := snp64 ctx SNP_SNAP_STEP_LO s.dev
      let last := snp64 ctx SNP_LAST_CAP_LO s.dev
      let passed := decide (last ≠ noStep) && decide (st < last)
      let small (p : PressSt) : Bool := decide (snp64 ctx SNP_IMG_LEN_LO s.dev < imageSize p) || snp64 ctx SNP_IMG_LO s.dev % 4096 != 0
      let refused (cause : Nat) : Prop := ∃ d, exec (.snpSnap org val) s = .next { s with dev := d } ∧ d.snap = s.dev.snap ∧ d.mem = s.dev.mem ∧ d.out = s.dev.out ∧
        (faultValid snp0 s.dev = false → rd snp0 SNP_ERR d = cause + ctx * 16)
      let p := imagePress ctx s.dev
      ((passed = true → refused 7) ∧ (passed = false → small p = true → refused 6) ∧
        (passed = false → small p = false → ∃ d, exec (.snpSnap org val) s = .next { s with dev := d } ∧ d.mem = s.dev.mem ∧
          (last ≠ st → getSnap ctx d = { x with snap := some st, snapSent := false } ∧ d.out = s.dev.out) ∧
          (last = st → basteRuns s.dev = true → s.dev.flaws = [] → imagePoison ctx st p s.dev = none → getSnap ctx d = { x with snap := some st, snapSent := true } ∧ bits (snpR ctx SNP_CTL d) 16 3 = 4))))

/-- A restore that its source cannot give ends with its cause; one from the host reads the image, whose pieces land in place, and ends restored or
failed with the last of them or with a timeout (R406, R407, R411, R416, R420); RESUME arms the streams and the Press; RELAY and REBUILD begin. -/
def Obligations.Restores : Prop :=
  ∀ s : State,
    (∀ org val acts, snpWrite org val acts s.dev →
      let ctx := rdF snp0 SNP_CTX_SEL 0 6 s.dev
      let x := getSnap ctx s.dev
      let st := snp64 ctx SNP_RESTORE_STEP_LO s.dev
      let base := snp64 ctx SNP_IMG_LO s.dev
      let tables := seqLen (readTables ctx s.dev)
      let failed (i : Instr) (cause : Nat) : Prop := ∃ d, exec i s = .next { s with dev := d } ∧ getSnap ctx d = { x with restore := none } ∧
        bits (snpR ctx SNP_CTL d) 16 3 = 0 ∧ rdBit snp0 R_EVENT 9 d = true ∧ d.mem = s.dev.mem ∧
        (faultValid snp0 s.dev = false → rd snp0 SNP_ERR d = cause + ctx * 16)
      (acts = 0x100 → basteRuns s.dev = true →
        (bits val 4 2 = 0 → snp64 ctx SNP_LAST_CAP_LO s.dev ≠ st → failed (.snpRestore org val) 7) ∧
        (bits val 4 2 = 1 → dataLen ctx s.dev ≤ 1 → failed (.snpRestore org val) 4) ∧
        (bits val 4 2 = 3 → s.dev.flaws = [] → ∃ d, exec (.snpRestore org val) s = .next { s with dev := d } ∧ d.mem = s.dev.mem ∧ bits (snpR ctx SNP_CTL d) 16 3 = 2 ∧
          getSnap ctx d = { x with restore := some { step := st, source := 3, hostLeft := true }, restored := false } ∧
          d.hostReads.map (·.2) = s.dev.hostReads.map (·.2) ++ (List.range (ceilDiv recSize 4096)).map fun i => .baste ctx 0 .record (base + 4096 * i))) ∧
      (acts = 0x200 →
        let n := snp64 ctx SNP_RESUME_LO s.dev
        (∀ e, isSafe .tck s.dev = false → stitchNum s.dev + 1 < n → freeEntry s.dev = some e → ∃ d w, exec (.snpResume org val) s = .next { s with dev := d } ∧
          d.tck.armed = s.dev.tck.armed ++ [(e, w)] ∧ w.n = n ∧ w.ctx = some ctx ∧ w.after = .resume ctx ∧ w.org.cls = 8 ∧ d.mem = s.dev.mem ∧
          (bankKey prs0 PRS_CTL ctx, 1, 1) ∈ w.shadow ∧ (∀ j, jobAt ctx s.dev = some j → ∀ p ∈ enabledStreams j.pat j.cores,
            (regKey (.seq p.1) (sOff p.2 S_CTL), 1, 1) ∈ w.shadow)) ∧
        (isSafe .tck s.dev = true ∨ n ≤ stitchNum s.dev + 1 ∨ freeEntry s.dev = none → failed (.snpResume org val) 8)) ∧
      (acts = 0x800 → basteRuns s.dev = true → s.dev.flaws = [] → basteWaits ctx (fun o => decide (o = .relayGet) || decide (o = .relayPut)) s.dev = false →
        let rg := partRange tables 3 2
        ∃ d, exec (.snpRelay org val) s = .next { s with dev := d } ∧ bits (snpR ctx SNP_CTL d) 16 3 = 6 ∧ d.mem = s.dev.mem ∧
          (getSnap ctx d).relay = some { target := snpR ctx SNP_RELAY s.dev % 32768, pos := rg.1, lo := rg.1, hi := rg.2, putting := true }) ∧
      (acts = 0x1000 → basteRuns s.dev = true → s.dev.flaws = [] →
        let k := parGen ctx s.dev
        let own := ringOwn ctx s.dev
        (k ≠ noStep → ∃ d f, exec (.snpRebuild org val) s = .next { s with dev := d } ∧ f < 8 ∧ f ≠ own ∧
          (let others := (List.range 8).filter fun j => j != own && j != f
           getSnap ctx d = { x with consumed := some k, gen := some { step := k, buf := (genBufOf ctx k s.dev).getD 0, asked := others, lost := some f } }) ∧
          bits (snpR ctx SNP_CTL d) 16 3 = 5 ∧ d.mem = s.dev.mem) ∧
        (k = noStep → ∃ d, exec (.snpRebuild org val) s = .next { s with dev := d } ∧ onlyLogged [bankKey snp0 SNP_CTL ctx] s.dev d)) ∧
      (basteRuns s.dev = false →
        let kept (i : Instr) : Prop := ∃ d, exec i s = .next { s with dev := d } ∧ getSnap ctx d = { x with acts := x.acts ||| acts } ∧ d.mem = s.dev.mem
        (acts = 0x100 → kept (.snpRestore org val)) ∧ (acts = 0x800 → kept (.snpRelay org val)) ∧ (acts = 0x1000 → kept (.snpRebuild org val)))) ∧
    (∀ tag data ctx die op addr (r : RestoreSt), hostUp s.dev = true → (s.dev.hostReads.find? fun q => q.1 == tag) = some (tag, .baste ctx die op addr) →
      (getSnap ctx s.dev).restore = some r → snp64 ctx SNP_IMG_LO s.dev ≤ addr →
      let off := addr - snp64 ctx SNP_IMG_LO s.dev
      let left := s.dev.hostReads.filter fun q => q.1 != tag
      let more := left.any fun q => isBaste ctx (fun o => decide (o = .record)) q.2
      (∀ k, off < recSize → more = true → sound s.dev → spotOf ctx (ownRec ctx r.step s.dev + off) s.dev = .mem k →
        memOk (ownRec ctx r.step s.dev + off) data.length s.dev = true → ∃ d,
        exec (.hostCompletion tag data) s = .next { s with dev := d } ∧ d.hostReads = left ∧ (∀ i, i < data.length → memRd d (k + i) = data.getD i 0) ∧
        memKept k data.length s.dev d ∧ d.snap = s.dev.snap) ∧
      (∀ k, more = false → r.recOk = false → r.recBad = false → r.source = 3 → basteWaits ctx (fun o => decide (o = .record)) s.dev = false →
        sound s.dev → s.dev.flaws = [] → s.dev.poison = [] → spotOf ctx (ownRec ctx r.step s.dev) s.dev = .mem k → memOk (ownRec ctx r.step s.dev) recSize s.dev = true →
        8 ≤ off → off + data.length ≤ recSize → (∀ i, i < 8 → memRd s.dev (k + i) = 0) → ∃ d,
        exec (.hostCompletion tag data) s = .next { s with dev := d } ∧ d.hostReads = left ∧ getSnap ctx d = { getSnap ctx s.dev with restore := none } ∧
        rdBit snp0 R_EVENT 9 d = true ∧ (faultValid snp0 s.dev = false → rd snp0 SNP_ERR d = 2 + ctx * 16)) ∧
      (more = false → r.recOk = true → basteWaits ctx restoreOp s.dev = false → r.parts.contains 2 = false → ∃ d, exec (.hostCompletion tag data) s = .next { s with dev := d } ∧
        d.hostReads = left ∧ (getSnap ctx d).restore = none ∧ ((getSnap ctx d).restored = true ∧ rdBit snp0 R_EVENT 8 d = true ∨ rdBit snp0 R_EVENT 9 d = true))) ∧
    (∀ fn, (s.dev.hostReads = [] → exec (.completionTimeout fn) s = .next s) ∧
      (∀ t ctx die op addr rest, s.dev.hostReads = (t, .baste ctx die op addr) :: rest → ctx < 64 → (getSnap ctx s.dev).restore.isSome = true → ∃ d,
        exec (.completionTimeout fn) s = .next { s with dev := d } ∧ d.hostReads = rest ∧ rdBit .pci R_EVENT 9 d = true ∧
        getSnap ctx d = { getSnap ctx s.dev with restore := none } ∧ rdBit snp0 R_EVENT 9 d = true ∧ bits (snpR ctx SNP_CTL d) 16 3 = 0 ∧
        (faultValid snp0 s.dev = false → rd snp0 SNP_ERR d = 9 + ctx * 16 ∧ rd64 snp0 SNP_ERR_ADDR_LO d = addr % 2 ^ 64) ∧ d.mem = s.dev.mem))

/-! ### Every command, and what lies under them all -/

/-- A step takes the command at the front of the queue and runs it on the rest; a command changes the device and the fuses and always answers a next
state. With none waiting the device idles for a mesh cycle: that is the model's choice (log entry 2). -/
def Obligations.StepRunsTheFront : Prop :=
  (∀ (s : State) (c : Instr) (rest : List Instr), step { s with pending := c :: rest } = exec c { s with pending := rest }) ∧
  (∀ (c : Instr) (s : State), ∃ d f, exec c s = .next { s with dev := d, fuses := f }) ∧
  (∀ s : State, s.pending = [] → step s = .next { s with dev := meshCycle s.dev })

/-- A location of BAR0 with no block or no register reads 0 and takes no write, and no block has the ID 0 (R52). -/
def Obligations.ReservedLocations : Prop :=
  (∀ (s : State) (org : Org) (a p : Nat), (isHost org = true → hostUp s.dev = true ∧ hostServed s.dev = true) → (org.cls = 2 → isSafe .pci s.dev = false) →
    vfRefused org a s.dev = false → lcwWaits org a s.dev = false → a % 4 = 0 → physOffset org a s.dev = some p →
    (presentBlk p s.dev = none ∨ ∃ b, presentBlk p s.dev = some b ∧ regSpec b (regOff p) = none) →
    exec (.registerRead org a 4 []) s = .next { s with dev := { s.dev with out := .regData 0 :: s.dev.out } } ∧
    ∀ v, exec (.registerWrite org a 4 v) s = .next s) ∧
  ∀ b : Blk, blkType b ≠ 0 ∧ ∀ d, blkOk b = true → regVal b R_ID d ≠ 0

/-- The routers' coordinates, and the quarter of the mesh that each die holds (R12). -/
def Obligations.Routers : Prop :=
  (∀ d r : Nat, d < 4 → r < 48 →
    let p := routerPos d r
    8 * (d % 2) ≤ p.1 ∧ p.1 ≤ 8 * (d % 2) + 7 ∧ 6 * (d / 2) ≤ p.2 ∧ p.2 ≤ 6 * (d / 2) + 5 ∧ p.1 ≤ 15 ∧ p.2 ≤ 11 ∧ routerAt p.1 p.2 = (d, r)) ∧
  ∀ x y : Nat, x ≤ 15 → y ≤ 11 →
    let k := routerAt x y
    k.1 < 4 ∧ k.2 < 48 ∧ routerPos k.1 k.2 = (x, y)
end

