-- ==== Sys2Proof/Laws/Bits.lean ====
section
/-! SUPPORT. Bit fields and byte orders: a field read after it is written, the other fields, and bytes read back. -/

namespace Sys2Proof.Machine

/-- A field written reads the value's low bits. -/
theorem bits_putBits (n lo len v : Nat) : bits (putBits n lo len v) lo len = v % 2 ^ len := by
  unfold bits putBits
  rw [Nat.shiftRight_eq_div_pow, Nat.shiftRight_eq_div_pow, Nat.pow_add]
  have hlo : 0 < 2 ^ lo := Nat.two_pow_pos lo
  have hn : n % 2 ^ lo < 2 ^ lo := Nat.mod_lt _ hlo
  have : n % 2 ^ lo + v % 2 ^ len * 2 ^ lo + n / (2 ^ lo * 2 ^ len) * (2 ^ lo * 2 ^ len)
      = n % 2 ^ lo + (v % 2 ^ len + n / (2 ^ lo * 2 ^ len) * 2 ^ len) * 2 ^ lo := by
    rw [Nat.add_mul, Nat.add_assoc]; congr 2; rw [Nat.mul_assoc, Nat.mul_comm (2 ^ lo)]
  rw [this, Nat.add_mul_div_right _ _ hlo, Nat.div_eq_of_lt hn, Nat.zero_add, Nat.add_mul_mod_self_right, Nat.mod_mod]

/-- The bits of a number after a field of it is written. -/
theorem testBit_putBits (n lo len v i : Nat) :
    (putBits n lo len v).testBit i = if lo ≤ i ∧ i < lo + len then v.testBit (i - lo) else n.testBit i := by
  have h : putBits n lo len v = 2 ^ (lo + len) * (n >>> (lo + len)) + (2 ^ lo * (v % 2 ^ len) + n % 2 ^ lo) := by
    unfold putBits
    rw [Nat.mul_comm (2 ^ (lo + len)), Nat.mul_comm (2 ^ lo)]
    omega
  have h1 : n % 2 ^ lo < 2 ^ lo := Nat.mod_lt _ (Nat.two_pow_pos lo)
  have h2 : 2 ^ lo * (v % 2 ^ len) + n % 2 ^ lo < 2 ^ (lo + len) := by
    have hv : v % 2 ^ len < 2 ^ len := Nat.mod_lt _ (Nat.two_pow_pos len)
    have : 2 ^ lo * (v % 2 ^ len) + 2 ^ lo ≤ 2 ^ lo * 2 ^ len := by
      rw [← Nat.mul_succ]; exact Nat.mul_le_mul (Nat.le_refl _) hv
    rw [Nat.pow_add]; omega
  rw [h, Nat.testBit_two_pow_mul_add _ h2, Nat.testBit_two_pow_mul_add _ h1, Nat.testBit_mod_two_pow, Nat.testBit_mod_two_pow,
    Nat.testBit_shiftRight]
  by_cases h3 : i < lo + len
  · by_cases h4 : i < lo
    · simp [h3, h4, Nat.not_le.2 h4]
    · have h5 : i - lo < len := by omega
      simp [h3, h4, Nat.not_lt.1 h4, h5]
  · have h4 : lo + len + (i - (lo + len)) = i := by omega
    simp [h3, h4]

@[simp] theorem length_toBytes (k n : Nat) : (toBytes k n).length = k := by
  induction k generalizing n with
  | zero => rfl
  | succ k ih => simp [toBytes, ih]

/-- Bytes of a number spell its low bits. -/
theorem ofBytes_toBytes (k n : Nat) : ofBytes (toBytes k n) = n % 2 ^ (8 * k) := by
  induction k generalizing n with
  | zero => simp [toBytes, ofBytes, Nat.mod_one]
  | succ k ih =>
    simp only [toBytes, ofBytes, ih, BitVec.toNat_ofNat]
    rw [show 8 * (k + 1) = 8 + 8 * k by omega, Nat.pow_add, Nat.mod_mul]

/-- Bytes and the number that they spell. -/
theorem toBytes_ofBytes (bs : List Byte) : toBytes bs.length (ofBytes bs) = bs := by
  induction bs with
  | nil => rfl
  | cons b bs ih =>
    have hb : b.toNat < 256 := b.isLt
    simp only [List.length_cons, toBytes, ofBytes]
    rw [show (b.toNat + 256 * ofBytes bs) / 256 = ofBytes bs by omega, ih]
    congr 1
    apply BitVec.eq_of_toNat_eq
    simp only [BitVec.toNat_ofNat]
    omega

/-- Bytes of a number made of two parts. -/
theorem toBytes_add {m a : Nat} (n b : Nat) (h : a < 2 ^ (8 * m)) : toBytes (m + n) (a + b * 2 ^ (8 * m)) = toBytes m a ++ toBytes n b := by
  induction m generalizing a with
  | zero =>
    have : a = 0 := by simpa using h
    simp [toBytes, this]
  | succ m ih =>
    rw [show m + 1 + n = (m + n) + 1 by omega]
    have hp : 2 ^ (8 * (m + 1)) = 256 * 2 ^ (8 * m) := by rw [show 8 * (m + 1) = 8 + 8 * m by omega, Nat.pow_add]
    rw [hp] at h ⊢
    simp only [toBytes, List.cons_append]
    have h1 : (a + b * (256 * 2 ^ (8 * m))) / 256 = a / 256 + b * 2 ^ (8 * m) := by
      rw [show b * (256 * 2 ^ (8 * m)) = b * 2 ^ (8 * m) * 256 by ac_rfl, Nat.add_mul_div_right _ _ (by omega)]
    rw [h1, ih (by omega)]
    congr 1
    apply BitVec.eq_of_toNat_eq
    simp only [BitVec.toNat_ofNat]
    rw [show b * (256 * 2 ^ (8 * m)) = 256 * (b * 2 ^ (8 * m)) by ac_rfl]
    omega

theorem sat_le (m n : Nat) : sat m n ≤ m := by unfold sat; split <;> omega

end Sys2Proof.Machine
end

