-- ==== Sys2Proof/Laws/State.lean ====
section
/-! SUPPORT. What an update of one field of the device leaves of each field. Every other update of registers and memory is made of these. -/

namespace Sys2Proof.Machine

/-- A meaning that acts on the device answers a next state, with queue and fuses as they were. -/
@[simp] theorem onDev_eq (s : State) (f : Dev → Dev) : s.onDev f = .next { s with dev := f s.dev } := rfl


@[simp] theorem wrKey_flash (k v : Nat) (d : Dev) : (wrKey k v d).flash = d.flash := rfl
@[simp] theorem wrKey_regs (k v : Nat) (d : Dev) : (wrKey k v d).regs = Sparse.set regReset d.regs k (BitVec.ofNat 32 v) := rfl
@[simp] theorem wrKey_mem (k v : Nat) (d : Dev) : (wrKey k v d).mem = d.mem := rfl
@[simp] theorem wrKey_poison (k v : Nat) (d : Dev) : (wrKey k v d).poison = d.poison := rfl
@[simp] theorem wrKey_flaws (k v : Nat) (d : Dev) : (wrKey k v d).flaws = d.flaws := rfl
@[simp] theorem wrKey_wback (k v : Nat) (d : Dev) : (wrKey k v d).wback = d.wback := rfl
@[simp] theorem wrKey_eccOnce (k v : Nat) (d : Dev) : (wrKey k v d).eccOnce = d.eccOnce := rfl
@[simp] theorem wrKey_farMap (k v : Nat) (d : Dev) : (wrKey k v d).farMap = d.farMap := rfl
@[simp] theorem wrKey_binds (k v : Nat) (d : Dev) : (wrKey k v d).binds = d.binds := rfl
@[simp] theorem wrKey_parityBad (k v : Nat) (d : Dev) : (wrKey k v d).parityBad = d.parityBad := rfl
@[simp] theorem wrKey_safe (k v : Nat) (d : Dev) : (wrKey k v d).safe = d.safe := rfl
@[simp] theorem wrKey_hiLatch (k v : Nat) (d : Dev) : (wrKey k v d).hiLatch = d.hiLatch := rfl
@[simp] theorem wrKey_resets (k v : Nat) (d : Dev) : (wrKey k v d).resets = d.resets := rfl
@[simp] theorem wrKey_log (k v : Nat) (d : Dev) : (wrKey k v d).log = d.log := rfl
@[simp] theorem wrKey_cores (k v : Nat) (d : Dev) : (wrKey k v d).cores = d.cores := rfl
@[simp] theorem wrKey_net (k v : Nat) (d : Dev) : (wrKey k v d).net = d.net := rfl
@[simp] theorem wrKey_tck (k v : Nat) (d : Dev) : (wrKey k v d).tck = d.tck := rfl
@[simp] theorem wrKey_press (k v : Nat) (d : Dev) : (wrKey k v d).press = d.press := rfl
@[simp] theorem wrKey_snap (k v : Nat) (d : Dev) : (wrKey k v d).snap = d.snap := rfl
@[simp] theorem wrKey_hostReads (k v : Nat) (d : Dev) : (wrKey k v d).hostReads = d.hostReads := rfl
@[simp] theorem wrKey_jobs (k v : Nat) (d : Dev) : (wrKey k v d).jobs = d.jobs := rfl
@[simp] theorem wrKey_fits (k v : Nat) (d : Dev) : (wrKey k v d).fits = d.fits := rfl
@[simp] theorem wrKey_runs (k v : Nat) (d : Dev) : (wrKey k v d).runs = d.runs := rfl
@[simp] theorem wrKey_fwStore (k v : Nat) (d : Dev) : (wrKey k v d).fwStore = d.fwStore := rfl
@[simp] theorem wrKey_mod (k v : Nat) (d : Dev) : (wrKey k v d).mod_ = d.mod_ := rfl
@[simp] theorem wrKey_host (k v : Nat) (d : Dev) : (wrKey k v d).host = d.host := rfl
@[simp] theorem wrKey_tape (k v : Nat) (d : Dev) : (wrKey k v d).tape = d.tape := rfl
@[simp] theorem wrKey_age (k v : Nat) (d : Dev) : (wrKey k v d).age = d.age := rfl
@[simp] theorem wrKey_sel (k v : Nat) (d : Dev) : (wrKey k v d).sel = d.sel := rfl
@[simp] theorem wrKey_sealing (k v : Nat) (d : Dev) : (wrKey k v d).sealing = d.sealing := rfl
@[simp] theorem wrKey_lcwHeld (k v : Nat) (d : Dev) : (wrKey k v d).lcwHeld = d.lcwHeld := rfl
@[simp] theorem wrKey_wperm (k v : Nat) (d : Dev) : (wrKey k v d).wperm = d.wperm := rfl
@[simp] theorem wrKey_out (k v : Nat) (d : Dev) : (wrKey k v d).out = d.out := rfl
@[simp] theorem wrKey_hostHeld (k v : Nat) (d : Dev) : (wrKey k v d).hostHeld = d.hostHeld := rfl
@[simp] theorem wrKey_free (k v : Nat) (d : Dev) : (wrKey k v d).free = d.free := rfl
@[simp] theorem wrKey_histBase (k v : Nat) (d : Dev) : (wrKey k v d).histBase = d.histBase := rfl
@[simp] theorem wrKey_cycle (k v : Nat) (d : Dev) : (wrKey k v d).cycle = d.cycle := rfl

@[simp] theorem memWr_flash (k : Nat) (v : Byte) (d : Dev) : (memWr k v d).flash = d.flash := rfl
@[simp] theorem memWr_regs (k : Nat) (v : Byte) (d : Dev) : (memWr k v d).regs = d.regs := rfl
@[simp] theorem memWr_mem (k : Nat) (v : Byte) (d : Dev) : (memWr k v d).mem = Sparse.set memInit d.mem k v := rfl
@[simp] theorem memWr_poison (k : Nat) (v : Byte) (d : Dev) : (memWr k v d).poison = d.poison := rfl
@[simp] theorem memWr_flaws (k : Nat) (v : Byte) (d : Dev) : (memWr k v d).flaws = d.flaws := rfl
@[simp] theorem memWr_wback (k : Nat) (v : Byte) (d : Dev) : (memWr k v d).wback = d.wback := rfl
@[simp] theorem memWr_eccOnce (k : Nat) (v : Byte) (d : Dev) : (memWr k v d).eccOnce = d.eccOnce := rfl
@[simp] theorem memWr_farMap (k : Nat) (v : Byte) (d : Dev) : (memWr k v d).farMap = d.farMap := rfl
@[simp] theorem memWr_binds (k : Nat) (v : Byte) (d : Dev) : (memWr k v d).binds = d.binds := rfl
@[simp] theorem memWr_parityBad (k : Nat) (v : Byte) (d : Dev) : (memWr k v d).parityBad = d.parityBad := rfl
@[simp] theorem memWr_safe (k : Nat) (v : Byte) (d : Dev) : (memWr k v d).safe = d.safe := rfl
@[simp] theorem memWr_hiLatch (k : Nat) (v : Byte) (d : Dev) : (memWr k v d).hiLatch = d.hiLatch := rfl
@[simp] theorem memWr_resets (k : Nat) (v : Byte) (d : Dev) : (memWr k v d).resets = d.resets := rfl
@[simp] theorem memWr_log (k : Nat) (v : Byte) (d : Dev) : (memWr k v d).log = d.log := rfl
@[simp] theorem memWr_cores (k : Nat) (v : Byte) (d : Dev) : (memWr k v d).cores = d.cores := rfl
@[simp] theorem memWr_net (k : Nat) (v : Byte) (d : Dev) : (memWr k v d).net = d.net := rfl
@[simp] theorem memWr_tck (k : Nat) (v : Byte) (d : Dev) : (memWr k v d).tck = d.tck := rfl
@[simp] theorem memWr_press (k : Nat) (v : Byte) (d : Dev) : (memWr k v d).press = d.press := rfl
@[simp] theorem memWr_snap (k : Nat) (v : Byte) (d : Dev) : (memWr k v d).snap = d.snap := rfl
@[simp] theorem memWr_hostReads (k : Nat) (v : Byte) (d : Dev) : (memWr k v d).hostReads = d.hostReads := rfl
@[simp] theorem memWr_jobs (k : Nat) (v : Byte) (d : Dev) : (memWr k v d).jobs = d.jobs := rfl
@[simp] theorem memWr_fits (k : Nat) (v : Byte) (d : Dev) : (memWr k v d).fits = d.fits := rfl
@[simp] theorem memWr_runs (k : Nat) (v : Byte) (d : Dev) : (memWr k v d).runs = d.runs := rfl
@[simp] theorem memWr_fwStore (k : Nat) (v : Byte) (d : Dev) : (memWr k v d).fwStore = d.fwStore := rfl
@[simp] theorem memWr_mod (k : Nat) (v : Byte) (d : Dev) : (memWr k v d).mod_ = d.mod_ := rfl
@[simp] theorem memWr_host (k : Nat) (v : Byte) (d : Dev) : (memWr k v d).host = d.host := rfl
@[simp] theorem memWr_tape (k : Nat) (v : Byte) (d : Dev) : (memWr k v d).tape = d.tape := rfl
@[simp] theorem memWr_age (k : Nat) (v : Byte) (d : Dev) : (memWr k v d).age = d.age := rfl
@[simp] theorem memWr_sel (k : Nat) (v : Byte) (d : Dev) : (memWr k v d).sel = d.sel := rfl
@[simp] theorem memWr_sealing (k : Nat) (v : Byte) (d : Dev) : (memWr k v d).sealing = d.sealing := rfl
@[simp] theorem memWr_lcwHeld (k : Nat) (v : Byte) (d : Dev) : (memWr k v d).lcwHeld = d.lcwHeld := rfl
@[simp] theorem memWr_wperm (k : Nat) (v : Byte) (d : Dev) : (memWr k v d).wperm = d.wperm := rfl
@[simp] theorem memWr_out (k : Nat) (v : Byte) (d : Dev) : (memWr k v d).out = d.out := rfl
@[simp] theorem memWr_hostHeld (k : Nat) (v : Byte) (d : Dev) : (memWr k v d).hostHeld = d.hostHeld := rfl
@[simp] theorem memWr_free (k : Nat) (v : Byte) (d : Dev) : (memWr k v d).free = d.free := rfl
@[simp] theorem memWr_histBase (k : Nat) (v : Byte) (d : Dev) : (memWr k v d).histBase = d.histBase := rfl
@[simp] theorem memWr_cycle (k : Nat) (v : Byte) (d : Dev) : (memWr k v d).cycle = d.cycle := rfl

@[simp] theorem freeNext_flash (d : Dev) : (freeNext d).flash = d.flash := rfl
@[simp] theorem freeNext_regs (d : Dev) : (freeNext d).regs = d.regs := rfl
@[simp] theorem freeNext_mem (d : Dev) : (freeNext d).mem = d.mem := rfl
@[simp] theorem freeNext_poison (d : Dev) : (freeNext d).poison = d.poison := rfl
@[simp] theorem freeNext_flaws (d : Dev) : (freeNext d).flaws = d.flaws := rfl
@[simp] theorem freeNext_wback (d : Dev) : (freeNext d).wback = d.wback := rfl
@[simp] theorem freeNext_eccOnce (d : Dev) : (freeNext d).eccOnce = d.eccOnce := rfl
@[simp] theorem freeNext_farMap (d : Dev) : (freeNext d).farMap = d.farMap := rfl
@[simp] theorem freeNext_binds (d : Dev) : (freeNext d).binds = d.binds := rfl
@[simp] theorem freeNext_parityBad (d : Dev) : (freeNext d).parityBad = d.parityBad := rfl
@[simp] theorem freeNext_safe (d : Dev) : (freeNext d).safe = d.safe := rfl
@[simp] theorem freeNext_hiLatch (d : Dev) : (freeNext d).hiLatch = d.hiLatch := rfl
@[simp] theorem freeNext_resets (d : Dev) : (freeNext d).resets = d.resets := rfl
@[simp] theorem freeNext_log (d : Dev) : (freeNext d).log = d.log := rfl
@[simp] theorem freeNext_cores (d : Dev) : (freeNext d).cores = d.cores := rfl
@[simp] theorem freeNext_net (d : Dev) : (freeNext d).net = d.net := rfl
@[simp] theorem freeNext_tck (d : Dev) : (freeNext d).tck = d.tck := rfl
@[simp] theorem freeNext_press (d : Dev) : (freeNext d).press = d.press := rfl
@[simp] theorem freeNext_snap (d : Dev) : (freeNext d).snap = d.snap := rfl
@[simp] theorem freeNext_hostReads (d : Dev) : (freeNext d).hostReads = d.hostReads := rfl
@[simp] theorem freeNext_jobs (d : Dev) : (freeNext d).jobs = d.jobs := rfl
@[simp] theorem freeNext_fits (d : Dev) : (freeNext d).fits = d.fits := rfl
@[simp] theorem freeNext_runs (d : Dev) : (freeNext d).runs = d.runs := rfl
@[simp] theorem freeNext_fwStore (d : Dev) : (freeNext d).fwStore = d.fwStore := rfl
@[simp] theorem freeNext_mod (d : Dev) : (freeNext d).mod_ = d.mod_ := rfl
@[simp] theorem freeNext_host (d : Dev) : (freeNext d).host = d.host := rfl
@[simp] theorem freeNext_tape (d : Dev) : (freeNext d).tape = d.tape := rfl
@[simp] theorem freeNext_age (d : Dev) : (freeNext d).age = d.age := rfl
@[simp] theorem freeNext_sel (d : Dev) : (freeNext d).sel = d.sel := rfl
@[simp] theorem freeNext_sealing (d : Dev) : (freeNext d).sealing = d.sealing := rfl
@[simp] theorem freeNext_lcwHeld (d : Dev) : (freeNext d).lcwHeld = d.lcwHeld := rfl
@[simp] theorem freeNext_wperm (d : Dev) : (freeNext d).wperm = d.wperm := rfl
@[simp] theorem freeNext_out (d : Dev) : (freeNext d).out = d.out := rfl
@[simp] theorem freeNext_hostHeld (d : Dev) : (freeNext d).hostHeld = d.hostHeld := rfl
@[simp] theorem freeNext_free (d : Dev) : (freeNext d).free = d.free + 1 := rfl
@[simp] theorem freeNext_histBase (d : Dev) : (freeNext d).histBase = d.histBase := rfl
@[simp] theorem freeNext_cycle (d : Dev) : (freeNext d).cycle = d.cycle := rfl

@[simp] theorem freeSkip_flash (n : Nat) (d : Dev) : (freeSkip n d).flash = d.flash := rfl
@[simp] theorem freeSkip_regs (n : Nat) (d : Dev) : (freeSkip n d).regs = d.regs := rfl
@[simp] theorem freeSkip_mem (n : Nat) (d : Dev) : (freeSkip n d).mem = d.mem := rfl
@[simp] theorem freeSkip_poison (n : Nat) (d : Dev) : (freeSkip n d).poison = d.poison := rfl
@[simp] theorem freeSkip_flaws (n : Nat) (d : Dev) : (freeSkip n d).flaws = d.flaws := rfl
@[simp] theorem freeSkip_wback (n : Nat) (d : Dev) : (freeSkip n d).wback = d.wback := rfl
@[simp] theorem freeSkip_eccOnce (n : Nat) (d : Dev) : (freeSkip n d).eccOnce = d.eccOnce := rfl
@[simp] theorem freeSkip_farMap (n : Nat) (d : Dev) : (freeSkip n d).farMap = d.farMap := rfl
@[simp] theorem freeSkip_binds (n : Nat) (d : Dev) : (freeSkip n d).binds = d.binds := rfl
@[simp] theorem freeSkip_parityBad (n : Nat) (d : Dev) : (freeSkip n d).parityBad = d.parityBad := rfl
@[simp] theorem freeSkip_safe (n : Nat) (d : Dev) : (freeSkip n d).safe = d.safe := rfl
@[simp] theorem freeSkip_hiLatch (n : Nat) (d : Dev) : (freeSkip n d).hiLatch = d.hiLatch := rfl
@[simp] theorem freeSkip_resets (n : Nat) (d : Dev) : (freeSkip n d).resets = d.resets := rfl
@[simp] theorem freeSkip_log (n : Nat) (d : Dev) : (freeSkip n d).log = d.log := rfl
@[simp] theorem freeSkip_cores (n : Nat) (d : Dev) : (freeSkip n d).cores = d.cores := rfl
@[simp] theorem freeSkip_net (n : Nat) (d : Dev) : (freeSkip n d).net = d.net := rfl
@[simp] theorem freeSkip_tck (n : Nat) (d : Dev) : (freeSkip n d).tck = d.tck := rfl
@[simp] theorem freeSkip_press (n : Nat) (d : Dev) : (freeSkip n d).press = d.press := rfl
@[simp] theorem freeSkip_snap (n : Nat) (d : Dev) : (freeSkip n d).snap = d.snap := rfl
@[simp] theorem freeSkip_hostReads (n : Nat) (d : Dev) : (freeSkip n d).hostReads = d.hostReads := rfl
@[simp] theorem freeSkip_jobs (n : Nat) (d : Dev) : (freeSkip n d).jobs = d.jobs := rfl
@[simp] theorem freeSkip_fits (n : Nat) (d : Dev) : (freeSkip n d).fits = d.fits := rfl
@[simp] theorem freeSkip_runs (n : Nat) (d : Dev) : (freeSkip n d).runs = d.runs := rfl
@[simp] theorem freeSkip_fwStore (n : Nat) (d : Dev) : (freeSkip n d).fwStore = d.fwStore := rfl
@[simp] theorem freeSkip_mod (n : Nat) (d : Dev) : (freeSkip n d).mod_ = d.mod_ := rfl
@[simp] theorem freeSkip_host (n : Nat) (d : Dev) : (freeSkip n d).host = d.host := rfl
@[simp] theorem freeSkip_tape (n : Nat) (d : Dev) : (freeSkip n d).tape = d.tape := rfl
@[simp] theorem freeSkip_age (n : Nat) (d : Dev) : (freeSkip n d).age = d.age := rfl
@[simp] theorem freeSkip_sel (n : Nat) (d : Dev) : (freeSkip n d).sel = d.sel := rfl
@[simp] theorem freeSkip_sealing (n : Nat) (d : Dev) : (freeSkip n d).sealing = d.sealing := rfl
@[simp] theorem freeSkip_lcwHeld (n : Nat) (d : Dev) : (freeSkip n d).lcwHeld = d.lcwHeld := rfl
@[simp] theorem freeSkip_wperm (n : Nat) (d : Dev) : (freeSkip n d).wperm = d.wperm := rfl
@[simp] theorem freeSkip_out (n : Nat) (d : Dev) : (freeSkip n d).out = d.out := rfl
@[simp] theorem freeSkip_hostHeld (n : Nat) (d : Dev) : (freeSkip n d).hostHeld = d.hostHeld := rfl
@[simp] theorem freeSkip_free (n : Nat) (d : Dev) : (freeSkip n d).free = d.free + n := rfl
@[simp] theorem freeSkip_histBase (n : Nat) (d : Dev) : (freeSkip n d).histBase = d.histBase := rfl
@[simp] theorem freeSkip_cycle (n : Nat) (d : Dev) : (freeSkip n d).cycle = d.cycle := rfl

end Sys2Proof.Machine
end

