-- ==== Sys2Proof/Laws/Fields.lean ====
section
/-! SUPPORT. The register operations leave every other field of the device. -/

namespace Sys2Proof.Machine

@[simp] theorem wr_flash (b : Blk) (o v : Nat) (d : Dev) : (wr b o v d).flash = d.flash := rfl
@[simp] theorem wr_mem (b : Blk) (o v : Nat) (d : Dev) : (wr b o v d).mem = d.mem := rfl
@[simp] theorem wr_poison (b : Blk) (o v : Nat) (d : Dev) : (wr b o v d).poison = d.poison := rfl
@[simp] theorem wr_flaws (b : Blk) (o v : Nat) (d : Dev) : (wr b o v d).flaws = d.flaws := rfl
@[simp] theorem wr_wback (b : Blk) (o v : Nat) (d : Dev) : (wr b o v d).wback = d.wback := rfl
@[simp] theorem wr_eccOnce (b : Blk) (o v : Nat) (d : Dev) : (wr b o v d).eccOnce = d.eccOnce := rfl
@[simp] theorem wr_farMap (b : Blk) (o v : Nat) (d : Dev) : (wr b o v d).farMap = d.farMap := rfl
@[simp] theorem wr_binds (b : Blk) (o v : Nat) (d : Dev) : (wr b o v d).binds = d.binds := rfl
@[simp] theorem wr_parityBad (b : Blk) (o v : Nat) (d : Dev) : (wr b o v d).parityBad = d.parityBad := rfl
@[simp] theorem wr_safe (b : Blk) (o v : Nat) (d : Dev) : (wr b o v d).safe = d.safe := rfl
@[simp] theorem wr_hiLatch (b : Blk) (o v : Nat) (d : Dev) : (wr b o v d).hiLatch = d.hiLatch := rfl
@[simp] theorem wr_resets (b : Blk) (o v : Nat) (d : Dev) : (wr b o v d).resets = d.resets := rfl
@[simp] theorem wr_log (b : Blk) (o v : Nat) (d : Dev) : (wr b o v d).log = d.log := rfl
@[simp] theorem wr_cores (b : Blk) (o v : Nat) (d : Dev) : (wr b o v d).cores = d.cores := rfl
@[simp] theorem wr_net (b : Blk) (o v : Nat) (d : Dev) : (wr b o v d).net = d.net := rfl
@[simp] theorem wr_tck (b : Blk) (o v : Nat) (d : Dev) : (wr b o v d).tck = d.tck := rfl
@[simp] theorem wr_press (b : Blk) (o v : Nat) (d : Dev) : (wr b o v d).press = d.press := rfl
@[simp] theorem wr_snap (b : Blk) (o v : Nat) (d : Dev) : (wr b o v d).snap = d.snap := rfl
@[simp] theorem wr_hostReads (b : Blk) (o v : Nat) (d : Dev) : (wr b o v d).hostReads = d.hostReads := rfl
@[simp] theorem wr_jobs (b : Blk) (o v : Nat) (d : Dev) : (wr b o v d).jobs = d.jobs := rfl
@[simp] theorem wr_fits (b : Blk) (o v : Nat) (d : Dev) : (wr b o v d).fits = d.fits := rfl
@[simp] theorem wr_runs (b : Blk) (o v : Nat) (d : Dev) : (wr b o v d).runs = d.runs := rfl
@[simp] theorem wr_fwStore (b : Blk) (o v : Nat) (d : Dev) : (wr b o v d).fwStore = d.fwStore := rfl
@[simp] theorem wr_mod (b : Blk) (o v : Nat) (d : Dev) : (wr b o v d).mod_ = d.mod_ := rfl
@[simp] theorem wr_host (b : Blk) (o v : Nat) (d : Dev) : (wr b o v d).host = d.host := rfl
@[simp] theorem wr_tape (b : Blk) (o v : Nat) (d : Dev) : (wr b o v d).tape = d.tape := rfl
@[simp] theorem wr_age (b : Blk) (o v : Nat) (d : Dev) : (wr b o v d).age = d.age := rfl
@[simp] theorem wr_sel (b : Blk) (o v : Nat) (d : Dev) : (wr b o v d).sel = d.sel := rfl
@[simp] theorem wr_sealing (b : Blk) (o v : Nat) (d : Dev) : (wr b o v d).sealing = d.sealing := rfl
@[simp] theorem wr_lcwHeld (b : Blk) (o v : Nat) (d : Dev) : (wr b o v d).lcwHeld = d.lcwHeld := rfl
@[simp] theorem wr_wperm (b : Blk) (o v : Nat) (d : Dev) : (wr b o v d).wperm = d.wperm := rfl
@[simp] theorem wr_out (b : Blk) (o v : Nat) (d : Dev) : (wr b o v d).out = d.out := rfl
@[simp] theorem wr_hostHeld (b : Blk) (o v : Nat) (d : Dev) : (wr b o v d).hostHeld = d.hostHeld := rfl
@[simp] theorem wr_free (b : Blk) (o v : Nat) (d : Dev) : (wr b o v d).free = d.free := rfl
@[simp] theorem wr_histBase (b : Blk) (o v : Nat) (d : Dev) : (wr b o v d).histBase = d.histBase := rfl
@[simp] theorem wr_cycle (b : Blk) (o v : Nat) (d : Dev) : (wr b o v d).cycle = d.cycle := rfl

@[simp] theorem wrB_flash (b : Blk) (o i v : Nat) (d : Dev) : (wrB b o i v d).flash = d.flash := rfl
@[simp] theorem wrB_mem (b : Blk) (o i v : Nat) (d : Dev) : (wrB b o i v d).mem = d.mem := rfl
@[simp] theorem wrB_poison (b : Blk) (o i v : Nat) (d : Dev) : (wrB b o i v d).poison = d.poison := rfl
@[simp] theorem wrB_flaws (b : Blk) (o i v : Nat) (d : Dev) : (wrB b o i v d).flaws = d.flaws := rfl
@[simp] theorem wrB_wback (b : Blk) (o i v : Nat) (d : Dev) : (wrB b o i v d).wback = d.wback := rfl
@[simp] theorem wrB_eccOnce (b : Blk) (o i v : Nat) (d : Dev) : (wrB b o i v d).eccOnce = d.eccOnce := rfl
@[simp] theorem wrB_farMap (b : Blk) (o i v : Nat) (d : Dev) : (wrB b o i v d).farMap = d.farMap := rfl
@[simp] theorem wrB_binds (b : Blk) (o i v : Nat) (d : Dev) : (wrB b o i v d).binds = d.binds := rfl
@[simp] theorem wrB_parityBad (b : Blk) (o i v : Nat) (d : Dev) : (wrB b o i v d).parityBad = d.parityBad := rfl
@[simp] theorem wrB_safe (b : Blk) (o i v : Nat) (d : Dev) : (wrB b o i v d).safe = d.safe := rfl
@[simp] theorem wrB_hiLatch (b : Blk) (o i v : Nat) (d : Dev) : (wrB b o i v d).hiLatch = d.hiLatch := rfl
@[simp] theorem wrB_resets (b : Blk) (o i v : Nat) (d : Dev) : (wrB b o i v d).resets = d.resets := rfl
@[simp] theorem wrB_log (b : Blk) (o i v : Nat) (d : Dev) : (wrB b o i v d).log = d.log := rfl
@[simp] theorem wrB_cores (b : Blk) (o i v : Nat) (d : Dev) : (wrB b o i v d).cores = d.cores := rfl
@[simp] theorem wrB_net (b : Blk) (o i v : Nat) (d : Dev) : (wrB b o i v d).net = d.net := rfl
@[simp] theorem wrB_tck (b : Blk) (o i v : Nat) (d : Dev) : (wrB b o i v d).tck = d.tck := rfl
@[simp] theorem wrB_press (b : Blk) (o i v : Nat) (d : Dev) : (wrB b o i v d).press = d.press := rfl
@[simp] theorem wrB_snap (b : Blk) (o i v : Nat) (d : Dev) : (wrB b o i v d).snap = d.snap := rfl
@[simp] theorem wrB_hostReads (b : Blk) (o i v : Nat) (d : Dev) : (wrB b o i v d).hostReads = d.hostReads := rfl
@[simp] theorem wrB_jobs (b : Blk) (o i v : Nat) (d : Dev) : (wrB b o i v d).jobs = d.jobs := rfl
@[simp] theorem wrB_fits (b : Blk) (o i v : Nat) (d : Dev) : (wrB b o i v d).fits = d.fits := rfl
@[simp] theorem wrB_runs (b : Blk) (o i v : Nat) (d : Dev) : (wrB b o i v d).runs = d.runs := rfl
@[simp] theorem wrB_fwStore (b : Blk) (o i v : Nat) (d : Dev) : (wrB b o i v d).fwStore = d.fwStore := rfl
@[simp] theorem wrB_mod (b : Blk) (o i v : Nat) (d : Dev) : (wrB b o i v d).mod_ = d.mod_ := rfl
@[simp] theorem wrB_host (b : Blk) (o i v : Nat) (d : Dev) : (wrB b o i v d).host = d.host := rfl
@[simp] theorem wrB_tape (b : Blk) (o i v : Nat) (d : Dev) : (wrB b o i v d).tape = d.tape := rfl
@[simp] theorem wrB_age (b : Blk) (o i v : Nat) (d : Dev) : (wrB b o i v d).age = d.age := rfl
@[simp] theorem wrB_sel (b : Blk) (o i v : Nat) (d : Dev) : (wrB b o i v d).sel = d.sel := rfl
@[simp] theorem wrB_sealing (b : Blk) (o i v : Nat) (d : Dev) : (wrB b o i v d).sealing = d.sealing := rfl
@[simp] theorem wrB_lcwHeld (b : Blk) (o i v : Nat) (d : Dev) : (wrB b o i v d).lcwHeld = d.lcwHeld := rfl
@[simp] theorem wrB_wperm (b : Blk) (o i v : Nat) (d : Dev) : (wrB b o i v d).wperm = d.wperm := rfl
@[simp] theorem wrB_out (b : Blk) (o i v : Nat) (d : Dev) : (wrB b o i v d).out = d.out := rfl
@[simp] theorem wrB_hostHeld (b : Blk) (o i v : Nat) (d : Dev) : (wrB b o i v d).hostHeld = d.hostHeld := rfl
@[simp] theorem wrB_free (b : Blk) (o i v : Nat) (d : Dev) : (wrB b o i v d).free = d.free := rfl
@[simp] theorem wrB_histBase (b : Blk) (o i v : Nat) (d : Dev) : (wrB b o i v d).histBase = d.histBase := rfl
@[simp] theorem wrB_cycle (b : Blk) (o i v : Nat) (d : Dev) : (wrB b o i v d).cycle = d.cycle := rfl

@[simp] theorem wrF_flash (b : Blk) (o lo len v : Nat) (d : Dev) : (wrF b o lo len v d).flash = d.flash := rfl
@[simp] theorem wrF_mem (b : Blk) (o lo len v : Nat) (d : Dev) : (wrF b o lo len v d).mem = d.mem := rfl
@[simp] theorem wrF_poison (b : Blk) (o lo len v : Nat) (d : Dev) : (wrF b o lo len v d).poison = d.poison := rfl
@[simp] theorem wrF_flaws (b : Blk) (o lo len v : Nat) (d : Dev) : (wrF b o lo len v d).flaws = d.flaws := rfl
@[simp] theorem wrF_wback (b : Blk) (o lo len v : Nat) (d : Dev) : (wrF b o lo len v d).wback = d.wback := rfl
@[simp] theorem wrF_eccOnce (b : Blk) (o lo len v : Nat) (d : Dev) : (wrF b o lo len v d).eccOnce = d.eccOnce := rfl
@[simp] theorem wrF_farMap (b : Blk) (o lo len v : Nat) (d : Dev) : (wrF b o lo len v d).farMap = d.farMap := rfl
@[simp] theorem wrF_binds (b : Blk) (o lo len v : Nat) (d : Dev) : (wrF b o lo len v d).binds = d.binds := rfl
@[simp] theorem wrF_parityBad (b : Blk) (o lo len v : Nat) (d : Dev) : (wrF b o lo len v d).parityBad = d.parityBad := rfl
@[simp] theorem wrF_safe (b : Blk) (o lo len v : Nat) (d : Dev) : (wrF b o lo len v d).safe = d.safe := rfl
@[simp] theorem wrF_hiLatch (b : Blk) (o lo len v : Nat) (d : Dev) : (wrF b o lo len v d).hiLatch = d.hiLatch := rfl
@[simp] theorem wrF_resets (b : Blk) (o lo len v : Nat) (d : Dev) : (wrF b o lo len v d).resets = d.resets := rfl
@[simp] theorem wrF_log (b : Blk) (o lo len v : Nat) (d : Dev) : (wrF b o lo len v d).log = d.log := rfl
@[simp] theorem wrF_cores (b : Blk) (o lo len v : Nat) (d : Dev) : (wrF b o lo len v d).cores = d.cores := rfl
@[simp] theorem wrF_net (b : Blk) (o lo len v : Nat) (d : Dev) : (wrF b o lo len v d).net = d.net := rfl
@[simp] theorem wrF_tck (b : Blk) (o lo len v : Nat) (d : Dev) : (wrF b o lo len v d).tck = d.tck := rfl
@[simp] theorem wrF_press (b : Blk) (o lo len v : Nat) (d : Dev) : (wrF b o lo len v d).press = d.press := rfl
@[simp] theorem wrF_snap (b : Blk) (o lo len v : Nat) (d : Dev) : (wrF b o lo len v d).snap = d.snap := rfl
@[simp] theorem wrF_hostReads (b : Blk) (o lo len v : Nat) (d : Dev) : (wrF b o lo len v d).hostReads = d.hostReads := rfl
@[simp] theorem wrF_jobs (b : Blk) (o lo len v : Nat) (d : Dev) : (wrF b o lo len v d).jobs = d.jobs := rfl
@[simp] theorem wrF_fits (b : Blk) (o lo len v : Nat) (d : Dev) : (wrF b o lo len v d).fits = d.fits := rfl
@[simp] theorem wrF_runs (b : Blk) (o lo len v : Nat) (d : Dev) : (wrF b o lo len v d).runs = d.runs := rfl
@[simp] theorem wrF_fwStore (b : Blk) (o lo len v : Nat) (d : Dev) : (wrF b o lo len v d).fwStore = d.fwStore := rfl
@[simp] theorem wrF_mod (b : Blk) (o lo len v : Nat) (d : Dev) : (wrF b o lo len v d).mod_ = d.mod_ := rfl
@[simp] theorem wrF_host (b : Blk) (o lo len v : Nat) (d : Dev) : (wrF b o lo len v d).host = d.host := rfl
@[simp] theorem wrF_tape (b : Blk) (o lo len v : Nat) (d : Dev) : (wrF b o lo len v d).tape = d.tape := rfl
@[simp] theorem wrF_age (b : Blk) (o lo len v : Nat) (d : Dev) : (wrF b o lo len v d).age = d.age := rfl
@[simp] theorem wrF_sel (b : Blk) (o lo len v : Nat) (d : Dev) : (wrF b o lo len v d).sel = d.sel := rfl
@[simp] theorem wrF_sealing (b : Blk) (o lo len v : Nat) (d : Dev) : (wrF b o lo len v d).sealing = d.sealing := rfl
@[simp] theorem wrF_lcwHeld (b : Blk) (o lo len v : Nat) (d : Dev) : (wrF b o lo len v d).lcwHeld = d.lcwHeld := rfl
@[simp] theorem wrF_wperm (b : Blk) (o lo len v : Nat) (d : Dev) : (wrF b o lo len v d).wperm = d.wperm := rfl
@[simp] theorem wrF_out (b : Blk) (o lo len v : Nat) (d : Dev) : (wrF b o lo len v d).out = d.out := rfl
@[simp] theorem wrF_hostHeld (b : Blk) (o lo len v : Nat) (d : Dev) : (wrF b o lo len v d).hostHeld = d.hostHeld := rfl
@[simp] theorem wrF_free (b : Blk) (o lo len v : Nat) (d : Dev) : (wrF b o lo len v d).free = d.free := rfl
@[simp] theorem wrF_histBase (b : Blk) (o lo len v : Nat) (d : Dev) : (wrF b o lo len v d).histBase = d.histBase := rfl
@[simp] theorem wrF_cycle (b : Blk) (o lo len v : Nat) (d : Dev) : (wrF b o lo len v d).cycle = d.cycle := rfl

@[simp] theorem wrBit_flash (b : Blk) (o i : Nat) (v : Bool) (d : Dev) : (wrBit b o i v d).flash = d.flash := rfl
@[simp] theorem wrBit_mem (b : Blk) (o i : Nat) (v : Bool) (d : Dev) : (wrBit b o i v d).mem = d.mem := rfl
@[simp] theorem wrBit_poison (b : Blk) (o i : Nat) (v : Bool) (d : Dev) : (wrBit b o i v d).poison = d.poison := rfl
@[simp] theorem wrBit_flaws (b : Blk) (o i : Nat) (v : Bool) (d : Dev) : (wrBit b o i v d).flaws = d.flaws := rfl
@[simp] theorem wrBit_wback (b : Blk) (o i : Nat) (v : Bool) (d : Dev) : (wrBit b o i v d).wback = d.wback := rfl
@[simp] theorem wrBit_eccOnce (b : Blk) (o i : Nat) (v : Bool) (d : Dev) : (wrBit b o i v d).eccOnce = d.eccOnce := rfl
@[simp] theorem wrBit_farMap (b : Blk) (o i : Nat) (v : Bool) (d : Dev) : (wrBit b o i v d).farMap = d.farMap := rfl
@[simp] theorem wrBit_binds (b : Blk) (o i : Nat) (v : Bool) (d : Dev) : (wrBit b o i v d).binds = d.binds := rfl
@[simp] theorem wrBit_parityBad (b : Blk) (o i : Nat) (v : Bool) (d : Dev) : (wrBit b o i v d).parityBad = d.parityBad := rfl
@[simp] theorem wrBit_safe (b : Blk) (o i : Nat) (v : Bool) (d : Dev) : (wrBit b o i v d).safe = d.safe := rfl
@[simp] theorem wrBit_hiLatch (b : Blk) (o i : Nat) (v : Bool) (d : Dev) : (wrBit b o i v d).hiLatch = d.hiLatch := rfl
@[simp] theorem wrBit_resets (b : Blk) (o i : Nat) (v : Bool) (d : Dev) : (wrBit b o i v d).resets = d.resets := rfl
@[simp] theorem wrBit_log (b : Blk) (o i : Nat) (v : Bool) (d : Dev) : (wrBit b o i v d).log = d.log := rfl
@[simp] theorem wrBit_cores (b : Blk) (o i : Nat) (v : Bool) (d : Dev) : (wrBit b o i v d).cores = d.cores := rfl
@[simp] theorem wrBit_net (b : Blk) (o i : Nat) (v : Bool) (d : Dev) : (wrBit b o i v d).net = d.net := rfl
@[simp] theorem wrBit_tck (b : Blk) (o i : Nat) (v : Bool) (d : Dev) : (wrBit b o i v d).tck = d.tck := rfl
@[simp] theorem wrBit_press (b : Blk) (o i : Nat) (v : Bool) (d : Dev) : (wrBit b o i v d).press = d.press := rfl
@[simp] theorem wrBit_snap (b : Blk) (o i : Nat) (v : Bool) (d : Dev) : (wrBit b o i v d).snap = d.snap := rfl
@[simp] theorem wrBit_hostReads (b : Blk) (o i : Nat) (v : Bool) (d : Dev) : (wrBit b o i v d).hostReads = d.hostReads := rfl
@[simp] theorem wrBit_jobs (b : Blk) (o i : Nat) (v : Bool) (d : Dev) : (wrBit b o i v d).jobs = d.jobs := rfl
@[simp] theorem wrBit_fits (b : Blk) (o i : Nat) (v : Bool) (d : Dev) : (wrBit b o i v d).fits = d.fits := rfl
@[simp] theorem wrBit_runs (b : Blk) (o i : Nat) (v : Bool) (d : Dev) : (wrBit b o i v d).runs = d.runs := rfl
@[simp] theorem wrBit_fwStore (b : Blk) (o i : Nat) (v : Bool) (d : Dev) : (wrBit b o i v d).fwStore = d.fwStore := rfl
@[simp] theorem wrBit_mod (b : Blk) (o i : Nat) (v : Bool) (d : Dev) : (wrBit b o i v d).mod_ = d.mod_ := rfl
@[simp] theorem wrBit_host (b : Blk) (o i : Nat) (v : Bool) (d : Dev) : (wrBit b o i v d).host = d.host := rfl
@[simp] theorem wrBit_tape (b : Blk) (o i : Nat) (v : Bool) (d : Dev) : (wrBit b o i v d).tape = d.tape := rfl
@[simp] theorem wrBit_age (b : Blk) (o i : Nat) (v : Bool) (d : Dev) : (wrBit b o i v d).age = d.age := rfl
@[simp] theorem wrBit_sel (b : Blk) (o i : Nat) (v : Bool) (d : Dev) : (wrBit b o i v d).sel = d.sel := rfl
@[simp] theorem wrBit_sealing (b : Blk) (o i : Nat) (v : Bool) (d : Dev) : (wrBit b o i v d).sealing = d.sealing := rfl
@[simp] theorem wrBit_lcwHeld (b : Blk) (o i : Nat) (v : Bool) (d : Dev) : (wrBit b o i v d).lcwHeld = d.lcwHeld := rfl
@[simp] theorem wrBit_wperm (b : Blk) (o i : Nat) (v : Bool) (d : Dev) : (wrBit b o i v d).wperm = d.wperm := rfl
@[simp] theorem wrBit_out (b : Blk) (o i : Nat) (v : Bool) (d : Dev) : (wrBit b o i v d).out = d.out := rfl
@[simp] theorem wrBit_hostHeld (b : Blk) (o i : Nat) (v : Bool) (d : Dev) : (wrBit b o i v d).hostHeld = d.hostHeld := rfl
@[simp] theorem wrBit_free (b : Blk) (o i : Nat) (v : Bool) (d : Dev) : (wrBit b o i v d).free = d.free := rfl
@[simp] theorem wrBit_histBase (b : Blk) (o i : Nat) (v : Bool) (d : Dev) : (wrBit b o i v d).histBase = d.histBase := rfl
@[simp] theorem wrBit_cycle (b : Blk) (o i : Nat) (v : Bool) (d : Dev) : (wrBit b o i v d).cycle = d.cycle := rfl

@[simp] theorem wr64_flash (b : Blk) (o v : Nat) (d : Dev) : (wr64 b o v d).flash = d.flash := rfl
@[simp] theorem wr64_mem (b : Blk) (o v : Nat) (d : Dev) : (wr64 b o v d).mem = d.mem := rfl
@[simp] theorem wr64_poison (b : Blk) (o v : Nat) (d : Dev) : (wr64 b o v d).poison = d.poison := rfl
@[simp] theorem wr64_flaws (b : Blk) (o v : Nat) (d : Dev) : (wr64 b o v d).flaws = d.flaws := rfl
@[simp] theorem wr64_wback (b : Blk) (o v : Nat) (d : Dev) : (wr64 b o v d).wback = d.wback := rfl
@[simp] theorem wr64_eccOnce (b : Blk) (o v : Nat) (d : Dev) : (wr64 b o v d).eccOnce = d.eccOnce := rfl
@[simp] theorem wr64_farMap (b : Blk) (o v : Nat) (d : Dev) : (wr64 b o v d).farMap = d.farMap := rfl
@[simp] theorem wr64_binds (b : Blk) (o v : Nat) (d : Dev) : (wr64 b o v d).binds = d.binds := rfl
@[simp] theorem wr64_parityBad (b : Blk) (o v : Nat) (d : Dev) : (wr64 b o v d).parityBad = d.parityBad := rfl
@[simp] theorem wr64_safe (b : Blk) (o v : Nat) (d : Dev) : (wr64 b o v d).safe = d.safe := rfl
@[simp] theorem wr64_hiLatch (b : Blk) (o v : Nat) (d : Dev) : (wr64 b o v d).hiLatch = d.hiLatch := rfl
@[simp] theorem wr64_resets (b : Blk) (o v : Nat) (d : Dev) : (wr64 b o v d).resets = d.resets := rfl
@[simp] theorem wr64_log (b : Blk) (o v : Nat) (d : Dev) : (wr64 b o v d).log = d.log := rfl
@[simp] theorem wr64_cores (b : Blk) (o v : Nat) (d : Dev) : (wr64 b o v d).cores = d.cores := rfl
@[simp] theorem wr64_net (b : Blk) (o v : Nat) (d : Dev) : (wr64 b o v d).net = d.net := rfl
@[simp] theorem wr64_tck (b : Blk) (o v : Nat) (d : Dev) : (wr64 b o v d).tck = d.tck := rfl
@[simp] theorem wr64_press (b : Blk) (o v : Nat) (d : Dev) : (wr64 b o v d).press = d.press := rfl
@[simp] theorem wr64_snap (b : Blk) (o v : Nat) (d : Dev) : (wr64 b o v d).snap = d.snap := rfl
@[simp] theorem wr64_hostReads (b : Blk) (o v : Nat) (d : Dev) : (wr64 b o v d).hostReads = d.hostReads := rfl
@[simp] theorem wr64_jobs (b : Blk) (o v : Nat) (d : Dev) : (wr64 b o v d).jobs = d.jobs := rfl
@[simp] theorem wr64_fits (b : Blk) (o v : Nat) (d : Dev) : (wr64 b o v d).fits = d.fits := rfl
@[simp] theorem wr64_runs (b : Blk) (o v : Nat) (d : Dev) : (wr64 b o v d).runs = d.runs := rfl
@[simp] theorem wr64_fwStore (b : Blk) (o v : Nat) (d : Dev) : (wr64 b o v d).fwStore = d.fwStore := rfl
@[simp] theorem wr64_mod (b : Blk) (o v : Nat) (d : Dev) : (wr64 b o v d).mod_ = d.mod_ := rfl
@[simp] theorem wr64_host (b : Blk) (o v : Nat) (d : Dev) : (wr64 b o v d).host = d.host := rfl
@[simp] theorem wr64_tape (b : Blk) (o v : Nat) (d : Dev) : (wr64 b o v d).tape = d.tape := rfl
@[simp] theorem wr64_age (b : Blk) (o v : Nat) (d : Dev) : (wr64 b o v d).age = d.age := rfl
@[simp] theorem wr64_sel (b : Blk) (o v : Nat) (d : Dev) : (wr64 b o v d).sel = d.sel := rfl
@[simp] theorem wr64_sealing (b : Blk) (o v : Nat) (d : Dev) : (wr64 b o v d).sealing = d.sealing := rfl
@[simp] theorem wr64_lcwHeld (b : Blk) (o v : Nat) (d : Dev) : (wr64 b o v d).lcwHeld = d.lcwHeld := rfl
@[simp] theorem wr64_wperm (b : Blk) (o v : Nat) (d : Dev) : (wr64 b o v d).wperm = d.wperm := rfl
@[simp] theorem wr64_out (b : Blk) (o v : Nat) (d : Dev) : (wr64 b o v d).out = d.out := rfl
@[simp] theorem wr64_hostHeld (b : Blk) (o v : Nat) (d : Dev) : (wr64 b o v d).hostHeld = d.hostHeld := rfl
@[simp] theorem wr64_free (b : Blk) (o v : Nat) (d : Dev) : (wr64 b o v d).free = d.free := rfl
@[simp] theorem wr64_histBase (b : Blk) (o v : Nat) (d : Dev) : (wr64 b o v d).histBase = d.histBase := rfl
@[simp] theorem wr64_cycle (b : Blk) (o v : Nat) (d : Dev) : (wr64 b o v d).cycle = d.cycle := rfl

@[simp] theorem wrB64_flash (b : Blk) (o i v : Nat) (d : Dev) : (wrB64 b o i v d).flash = d.flash := rfl
@[simp] theorem wrB64_mem (b : Blk) (o i v : Nat) (d : Dev) : (wrB64 b o i v d).mem = d.mem := rfl
@[simp] theorem wrB64_poison (b : Blk) (o i v : Nat) (d : Dev) : (wrB64 b o i v d).poison = d.poison := rfl
@[simp] theorem wrB64_flaws (b : Blk) (o i v : Nat) (d : Dev) : (wrB64 b o i v d).flaws = d.flaws := rfl
@[simp] theorem wrB64_wback (b : Blk) (o i v : Nat) (d : Dev) : (wrB64 b o i v d).wback = d.wback := rfl
@[simp] theorem wrB64_eccOnce (b : Blk) (o i v : Nat) (d : Dev) : (wrB64 b o i v d).eccOnce = d.eccOnce := rfl
@[simp] theorem wrB64_farMap (b : Blk) (o i v : Nat) (d : Dev) : (wrB64 b o i v d).farMap = d.farMap := rfl
@[simp] theorem wrB64_binds (b : Blk) (o i v : Nat) (d : Dev) : (wrB64 b o i v d).binds = d.binds := rfl
@[simp] theorem wrB64_parityBad (b : Blk) (o i v : Nat) (d : Dev) : (wrB64 b o i v d).parityBad = d.parityBad := rfl
@[simp] theorem wrB64_safe (b : Blk) (o i v : Nat) (d : Dev) : (wrB64 b o i v d).safe = d.safe := rfl
@[simp] theorem wrB64_hiLatch (b : Blk) (o i v : Nat) (d : Dev) : (wrB64 b o i v d).hiLatch = d.hiLatch := rfl
@[simp] theorem wrB64_resets (b : Blk) (o i v : Nat) (d : Dev) : (wrB64 b o i v d).resets = d.resets := rfl
@[simp] theorem wrB64_log (b : Blk) (o i v : Nat) (d : Dev) : (wrB64 b o i v d).log = d.log := rfl
@[simp] theorem wrB64_cores (b : Blk) (o i v : Nat) (d : Dev) : (wrB64 b o i v d).cores = d.cores := rfl
@[simp] theorem wrB64_net (b : Blk) (o i v : Nat) (d : Dev) : (wrB64 b o i v d).net = d.net := rfl
@[simp] theorem wrB64_tck (b : Blk) (o i v : Nat) (d : Dev) : (wrB64 b o i v d).tck = d.tck := rfl
@[simp] theorem wrB64_press (b : Blk) (o i v : Nat) (d : Dev) : (wrB64 b o i v d).press = d.press := rfl
@[simp] theorem wrB64_snap (b : Blk) (o i v : Nat) (d : Dev) : (wrB64 b o i v d).snap = d.snap := rfl
@[simp] theorem wrB64_hostReads (b : Blk) (o i v : Nat) (d : Dev) : (wrB64 b o i v d).hostReads = d.hostReads := rfl
@[simp] theorem wrB64_jobs (b : Blk) (o i v : Nat) (d : Dev) : (wrB64 b o i v d).jobs = d.jobs := rfl
@[simp] theorem wrB64_fits (b : Blk) (o i v : Nat) (d : Dev) : (wrB64 b o i v d).fits = d.fits := rfl
@[simp] theorem wrB64_runs (b : Blk) (o i v : Nat) (d : Dev) : (wrB64 b o i v d).runs = d.runs := rfl
@[simp] theorem wrB64_fwStore (b : Blk) (o i v : Nat) (d : Dev) : (wrB64 b o i v d).fwStore = d.fwStore := rfl
@[simp] theorem wrB64_mod (b : Blk) (o i v : Nat) (d : Dev) : (wrB64 b o i v d).mod_ = d.mod_ := rfl
@[simp] theorem wrB64_host (b : Blk) (o i v : Nat) (d : Dev) : (wrB64 b o i v d).host = d.host := rfl
@[simp] theorem wrB64_tape (b : Blk) (o i v : Nat) (d : Dev) : (wrB64 b o i v d).tape = d.tape := rfl
@[simp] theorem wrB64_age (b : Blk) (o i v : Nat) (d : Dev) : (wrB64 b o i v d).age = d.age := rfl
@[simp] theorem wrB64_sel (b : Blk) (o i v : Nat) (d : Dev) : (wrB64 b o i v d).sel = d.sel := rfl
@[simp] theorem wrB64_sealing (b : Blk) (o i v : Nat) (d : Dev) : (wrB64 b o i v d).sealing = d.sealing := rfl
@[simp] theorem wrB64_lcwHeld (b : Blk) (o i v : Nat) (d : Dev) : (wrB64 b o i v d).lcwHeld = d.lcwHeld := rfl
@[simp] theorem wrB64_wperm (b : Blk) (o i v : Nat) (d : Dev) : (wrB64 b o i v d).wperm = d.wperm := rfl
@[simp] theorem wrB64_out (b : Blk) (o i v : Nat) (d : Dev) : (wrB64 b o i v d).out = d.out := rfl
@[simp] theorem wrB64_hostHeld (b : Blk) (o i v : Nat) (d : Dev) : (wrB64 b o i v d).hostHeld = d.hostHeld := rfl
@[simp] theorem wrB64_free (b : Blk) (o i v : Nat) (d : Dev) : (wrB64 b o i v d).free = d.free := rfl
@[simp] theorem wrB64_histBase (b : Blk) (o i v : Nat) (d : Dev) : (wrB64 b o i v d).histBase = d.histBase := rfl
@[simp] theorem wrB64_cycle (b : Blk) (o i v : Nat) (d : Dev) : (wrB64 b o i v d).cycle = d.cycle := rfl

@[simp] theorem bump_flash (b : Blk) (o n : Nat) (d : Dev) : (bump b o n d).flash = d.flash := rfl
@[simp] theorem bump_mem (b : Blk) (o n : Nat) (d : Dev) : (bump b o n d).mem = d.mem := rfl
@[simp] theorem bump_poison (b : Blk) (o n : Nat) (d : Dev) : (bump b o n d).poison = d.poison := rfl
@[simp] theorem bump_flaws (b : Blk) (o n : Nat) (d : Dev) : (bump b o n d).flaws = d.flaws := rfl
@[simp] theorem bump_wback (b : Blk) (o n : Nat) (d : Dev) : (bump b o n d).wback = d.wback := rfl
@[simp] theorem bump_eccOnce (b : Blk) (o n : Nat) (d : Dev) : (bump b o n d).eccOnce = d.eccOnce := rfl
@[simp] theorem bump_farMap (b : Blk) (o n : Nat) (d : Dev) : (bump b o n d).farMap = d.farMap := rfl
@[simp] theorem bump_binds (b : Blk) (o n : Nat) (d : Dev) : (bump b o n d).binds = d.binds := rfl
@[simp] theorem bump_parityBad (b : Blk) (o n : Nat) (d : Dev) : (bump b o n d).parityBad = d.parityBad := rfl
@[simp] theorem bump_safe (b : Blk) (o n : Nat) (d : Dev) : (bump b o n d).safe = d.safe := rfl
@[simp] theorem bump_hiLatch (b : Blk) (o n : Nat) (d : Dev) : (bump b o n d).hiLatch = d.hiLatch := rfl
@[simp] theorem bump_resets (b : Blk) (o n : Nat) (d : Dev) : (bump b o n d).resets = d.resets := rfl
@[simp] theorem bump_log (b : Blk) (o n : Nat) (d : Dev) : (bump b o n d).log = d.log := rfl
@[simp] theorem bump_cores (b : Blk) (o n : Nat) (d : Dev) : (bump b o n d).cores = d.cores := rfl
@[simp] theorem bump_net (b : Blk) (o n : Nat) (d : Dev) : (bump b o n d).net = d.net := rfl
@[simp] theorem bump_tck (b : Blk) (o n : Nat) (d : Dev) : (bump b o n d).tck = d.tck := rfl
@[simp] theorem bump_press (b : Blk) (o n : Nat) (d : Dev) : (bump b o n d).press = d.press := rfl
@[simp] theorem bump_snap (b : Blk) (o n : Nat) (d : Dev) : (bump b o n d).snap = d.snap := rfl
@[simp] theorem bump_hostReads (b : Blk) (o n : Nat) (d : Dev) : (bump b o n d).hostReads = d.hostReads := rfl
@[simp] theorem bump_jobs (b : Blk) (o n : Nat) (d : Dev) : (bump b o n d).jobs = d.jobs := rfl
@[simp] theorem bump_fits (b : Blk) (o n : Nat) (d : Dev) : (bump b o n d).fits = d.fits := rfl
@[simp] theorem bump_runs (b : Blk) (o n : Nat) (d : Dev) : (bump b o n d).runs = d.runs := rfl
@[simp] theorem bump_fwStore (b : Blk) (o n : Nat) (d : Dev) : (bump b o n d).fwStore = d.fwStore := rfl
@[simp] theorem bump_mod (b : Blk) (o n : Nat) (d : Dev) : (bump b o n d).mod_ = d.mod_ := rfl
@[simp] theorem bump_host (b : Blk) (o n : Nat) (d : Dev) : (bump b o n d).host = d.host := rfl
@[simp] theorem bump_tape (b : Blk) (o n : Nat) (d : Dev) : (bump b o n d).tape = d.tape := rfl
@[simp] theorem bump_age (b : Blk) (o n : Nat) (d : Dev) : (bump b o n d).age = d.age := rfl
@[simp] theorem bump_sel (b : Blk) (o n : Nat) (d : Dev) : (bump b o n d).sel = d.sel := rfl
@[simp] theorem bump_sealing (b : Blk) (o n : Nat) (d : Dev) : (bump b o n d).sealing = d.sealing := rfl
@[simp] theorem bump_lcwHeld (b : Blk) (o n : Nat) (d : Dev) : (bump b o n d).lcwHeld = d.lcwHeld := rfl
@[simp] theorem bump_wperm (b : Blk) (o n : Nat) (d : Dev) : (bump b o n d).wperm = d.wperm := rfl
@[simp] theorem bump_out (b : Blk) (o n : Nat) (d : Dev) : (bump b o n d).out = d.out := rfl
@[simp] theorem bump_hostHeld (b : Blk) (o n : Nat) (d : Dev) : (bump b o n d).hostHeld = d.hostHeld := rfl
@[simp] theorem bump_free (b : Blk) (o n : Nat) (d : Dev) : (bump b o n d).free = d.free := rfl
@[simp] theorem bump_histBase (b : Blk) (o n : Nat) (d : Dev) : (bump b o n d).histBase = d.histBase := rfl
@[simp] theorem bump_cycle (b : Blk) (o n : Nat) (d : Dev) : (bump b o n d).cycle = d.cycle := rfl

@[simp] theorem bump64_flash (b : Blk) (o n : Nat) (d : Dev) : (bump64 b o n d).flash = d.flash := rfl
@[simp] theorem bump64_mem (b : Blk) (o n : Nat) (d : Dev) : (bump64 b o n d).mem = d.mem := rfl
@[simp] theorem bump64_poison (b : Blk) (o n : Nat) (d : Dev) : (bump64 b o n d).poison = d.poison := rfl
@[simp] theorem bump64_flaws (b : Blk) (o n : Nat) (d : Dev) : (bump64 b o n d).flaws = d.flaws := rfl
@[simp] theorem bump64_wback (b : Blk) (o n : Nat) (d : Dev) : (bump64 b o n d).wback = d.wback := rfl
@[simp] theorem bump64_eccOnce (b : Blk) (o n : Nat) (d : Dev) : (bump64 b o n d).eccOnce = d.eccOnce := rfl
@[simp] theorem bump64_farMap (b : Blk) (o n : Nat) (d : Dev) : (bump64 b o n d).farMap = d.farMap := rfl
@[simp] theorem bump64_binds (b : Blk) (o n : Nat) (d : Dev) : (bump64 b o n d).binds = d.binds := rfl
@[simp] theorem bump64_parityBad (b : Blk) (o n : Nat) (d : Dev) : (bump64 b o n d).parityBad = d.parityBad := rfl
@[simp] theorem bump64_safe (b : Blk) (o n : Nat) (d : Dev) : (bump64 b o n d).safe = d.safe := rfl
@[simp] theorem bump64_hiLatch (b : Blk) (o n : Nat) (d : Dev) : (bump64 b o n d).hiLatch = d.hiLatch := rfl
@[simp] theorem bump64_resets (b : Blk) (o n : Nat) (d : Dev) : (bump64 b o n d).resets = d.resets := rfl
@[simp] theorem bump64_log (b : Blk) (o n : Nat) (d : Dev) : (bump64 b o n d).log = d.log := rfl
@[simp] theorem bump64_cores (b : Blk) (o n : Nat) (d : Dev) : (bump64 b o n d).cores = d.cores := rfl
@[simp] theorem bump64_net (b : Blk) (o n : Nat) (d : Dev) : (bump64 b o n d).net = d.net := rfl
@[simp] theorem bump64_tck (b : Blk) (o n : Nat) (d : Dev) : (bump64 b o n d).tck = d.tck := rfl
@[simp] theorem bump64_press (b : Blk) (o n : Nat) (d : Dev) : (bump64 b o n d).press = d.press := rfl
@[simp] theorem bump64_snap (b : Blk) (o n : Nat) (d : Dev) : (bump64 b o n d).snap = d.snap := rfl
@[simp] theorem bump64_hostReads (b : Blk) (o n : Nat) (d : Dev) : (bump64 b o n d).hostReads = d.hostReads := rfl
@[simp] theorem bump64_jobs (b : Blk) (o n : Nat) (d : Dev) : (bump64 b o n d).jobs = d.jobs := rfl
@[simp] theorem bump64_fits (b : Blk) (o n : Nat) (d : Dev) : (bump64 b o n d).fits = d.fits := rfl
@[simp] theorem bump64_runs (b : Blk) (o n : Nat) (d : Dev) : (bump64 b o n d).runs = d.runs := rfl
@[simp] theorem bump64_fwStore (b : Blk) (o n : Nat) (d : Dev) : (bump64 b o n d).fwStore = d.fwStore := rfl
@[simp] theorem bump64_mod (b : Blk) (o n : Nat) (d : Dev) : (bump64 b o n d).mod_ = d.mod_ := rfl
@[simp] theorem bump64_host (b : Blk) (o n : Nat) (d : Dev) : (bump64 b o n d).host = d.host := rfl
@[simp] theorem bump64_tape (b : Blk) (o n : Nat) (d : Dev) : (bump64 b o n d).tape = d.tape := rfl
@[simp] theorem bump64_age (b : Blk) (o n : Nat) (d : Dev) : (bump64 b o n d).age = d.age := rfl
@[simp] theorem bump64_sel (b : Blk) (o n : Nat) (d : Dev) : (bump64 b o n d).sel = d.sel := rfl
@[simp] theorem bump64_sealing (b : Blk) (o n : Nat) (d : Dev) : (bump64 b o n d).sealing = d.sealing := rfl
@[simp] theorem bump64_lcwHeld (b : Blk) (o n : Nat) (d : Dev) : (bump64 b o n d).lcwHeld = d.lcwHeld := rfl
@[simp] theorem bump64_wperm (b : Blk) (o n : Nat) (d : Dev) : (bump64 b o n d).wperm = d.wperm := rfl
@[simp] theorem bump64_out (b : Blk) (o n : Nat) (d : Dev) : (bump64 b o n d).out = d.out := rfl
@[simp] theorem bump64_hostHeld (b : Blk) (o n : Nat) (d : Dev) : (bump64 b o n d).hostHeld = d.hostHeld := rfl
@[simp] theorem bump64_free (b : Blk) (o n : Nat) (d : Dev) : (bump64 b o n d).free = d.free := rfl
@[simp] theorem bump64_histBase (b : Blk) (o n : Nat) (d : Dev) : (bump64 b o n d).histBase = d.histBase := rfl
@[simp] theorem bump64_cycle (b : Blk) (o n : Nat) (d : Dev) : (bump64 b o n d).cycle = d.cycle := rfl

@[simp] theorem bumpSat_flash (b : Blk) (o lo len : Nat) (d : Dev) : (bumpSat b o lo len d).flash = d.flash := rfl
@[simp] theorem bumpSat_mem (b : Blk) (o lo len : Nat) (d : Dev) : (bumpSat b o lo len d).mem = d.mem := rfl
@[simp] theorem bumpSat_poison (b : Blk) (o lo len : Nat) (d : Dev) : (bumpSat b o lo len d).poison = d.poison := rfl
@[simp] theorem bumpSat_flaws (b : Blk) (o lo len : Nat) (d : Dev) : (bumpSat b o lo len d).flaws = d.flaws := rfl
@[simp] theorem bumpSat_wback (b : Blk) (o lo len : Nat) (d : Dev) : (bumpSat b o lo len d).wback = d.wback := rfl
@[simp] theorem bumpSat_eccOnce (b : Blk) (o lo len : Nat) (d : Dev) : (bumpSat b o lo len d).eccOnce = d.eccOnce := rfl
@[simp] theorem bumpSat_farMap (b : Blk) (o lo len : Nat) (d : Dev) : (bumpSat b o lo len d).farMap = d.farMap := rfl
@[simp] theorem bumpSat_binds (b : Blk) (o lo len : Nat) (d : Dev) : (bumpSat b o lo len d).binds = d.binds := rfl
@[simp] theorem bumpSat_parityBad (b : Blk) (o lo len : Nat) (d : Dev) : (bumpSat b o lo len d).parityBad = d.parityBad := rfl
@[simp] theorem bumpSat_safe (b : Blk) (o lo len : Nat) (d : Dev) : (bumpSat b o lo len d).safe = d.safe := rfl
@[simp] theorem bumpSat_hiLatch (b : Blk) (o lo len : Nat) (d : Dev) : (bumpSat b o lo len d).hiLatch = d.hiLatch := rfl
@[simp] theorem bumpSat_resets (b : Blk) (o lo len : Nat) (d : Dev) : (bumpSat b o lo len d).resets = d.resets := rfl
@[simp] theorem bumpSat_log (b : Blk) (o lo len : Nat) (d : Dev) : (bumpSat b o lo len d).log = d.log := rfl
@[simp] theorem bumpSat_cores (b : Blk) (o lo len : Nat) (d : Dev) : (bumpSat b o lo len d).cores = d.cores := rfl
@[simp] theorem bumpSat_net (b : Blk) (o lo len : Nat) (d : Dev) : (bumpSat b o lo len d).net = d.net := rfl
@[simp] theorem bumpSat_tck (b : Blk) (o lo len : Nat) (d : Dev) : (bumpSat b o lo len d).tck = d.tck := rfl
@[simp] theorem bumpSat_press (b : Blk) (o lo len : Nat) (d : Dev) : (bumpSat b o lo len d).press = d.press := rfl
@[simp] theorem bumpSat_snap (b : Blk) (o lo len : Nat) (d : Dev) : (bumpSat b o lo len d).snap = d.snap := rfl
@[simp] theorem bumpSat_hostReads (b : Blk) (o lo len : Nat) (d : Dev) : (bumpSat b o lo len d).hostReads = d.hostReads := rfl
@[simp] theorem bumpSat_jobs (b : Blk) (o lo len : Nat) (d : Dev) : (bumpSat b o lo len d).jobs = d.jobs := rfl
@[simp] theorem bumpSat_fits (b : Blk) (o lo len : Nat) (d : Dev) : (bumpSat b o lo len d).fits = d.fits := rfl
@[simp] theorem bumpSat_runs (b : Blk) (o lo len : Nat) (d : Dev) : (bumpSat b o lo len d).runs = d.runs := rfl
@[simp] theorem bumpSat_fwStore (b : Blk) (o lo len : Nat) (d : Dev) : (bumpSat b o lo len d).fwStore = d.fwStore := rfl
@[simp] theorem bumpSat_mod (b : Blk) (o lo len : Nat) (d : Dev) : (bumpSat b o lo len d).mod_ = d.mod_ := rfl
@[simp] theorem bumpSat_host (b : Blk) (o lo len : Nat) (d : Dev) : (bumpSat b o lo len d).host = d.host := rfl
@[simp] theorem bumpSat_tape (b : Blk) (o lo len : Nat) (d : Dev) : (bumpSat b o lo len d).tape = d.tape := rfl
@[simp] theorem bumpSat_age (b : Blk) (o lo len : Nat) (d : Dev) : (bumpSat b o lo len d).age = d.age := rfl
@[simp] theorem bumpSat_sel (b : Blk) (o lo len : Nat) (d : Dev) : (bumpSat b o lo len d).sel = d.sel := rfl
@[simp] theorem bumpSat_sealing (b : Blk) (o lo len : Nat) (d : Dev) : (bumpSat b o lo len d).sealing = d.sealing := rfl
@[simp] theorem bumpSat_lcwHeld (b : Blk) (o lo len : Nat) (d : Dev) : (bumpSat b o lo len d).lcwHeld = d.lcwHeld := rfl
@[simp] theorem bumpSat_wperm (b : Blk) (o lo len : Nat) (d : Dev) : (bumpSat b o lo len d).wperm = d.wperm := rfl
@[simp] theorem bumpSat_out (b : Blk) (o lo len : Nat) (d : Dev) : (bumpSat b o lo len d).out = d.out := rfl
@[simp] theorem bumpSat_hostHeld (b : Blk) (o lo len : Nat) (d : Dev) : (bumpSat b o lo len d).hostHeld = d.hostHeld := rfl
@[simp] theorem bumpSat_free (b : Blk) (o lo len : Nat) (d : Dev) : (bumpSat b o lo len d).free = d.free := rfl
@[simp] theorem bumpSat_histBase (b : Blk) (o lo len : Nat) (d : Dev) : (bumpSat b o lo len d).histBase = d.histBase := rfl
@[simp] theorem bumpSat_cycle (b : Blk) (o lo len : Nat) (d : Dev) : (bumpSat b o lo len d).cycle = d.cycle := rfl

@[simp] theorem latch_flash (b : Blk) (c : Nat) (d : Dev) : (latch b c d).flash = d.flash := by unfold latch; split <;> rfl
@[simp] theorem latch_mem (b : Blk) (c : Nat) (d : Dev) : (latch b c d).mem = d.mem := by unfold latch; split <;> rfl
@[simp] theorem latch_poison (b : Blk) (c : Nat) (d : Dev) : (latch b c d).poison = d.poison := by unfold latch; split <;> rfl
@[simp] theorem latch_flaws (b : Blk) (c : Nat) (d : Dev) : (latch b c d).flaws = d.flaws := by unfold latch; split <;> rfl
@[simp] theorem latch_wback (b : Blk) (c : Nat) (d : Dev) : (latch b c d).wback = d.wback := by unfold latch; split <;> rfl
@[simp] theorem latch_eccOnce (b : Blk) (c : Nat) (d : Dev) : (latch b c d).eccOnce = d.eccOnce := by unfold latch; split <;> rfl
@[simp] theorem latch_farMap (b : Blk) (c : Nat) (d : Dev) : (latch b c d).farMap = d.farMap := by unfold latch; split <;> rfl
@[simp] theorem latch_binds (b : Blk) (c : Nat) (d : Dev) : (latch b c d).binds = d.binds := by unfold latch; split <;> rfl
@[simp] theorem latch_parityBad (b : Blk) (c : Nat) (d : Dev) : (latch b c d).parityBad = d.parityBad := by unfold latch; split <;> rfl
@[simp] theorem latch_safe (b : Blk) (c : Nat) (d : Dev) : (latch b c d).safe = d.safe := by unfold latch; split <;> rfl
@[simp] theorem latch_hiLatch (b : Blk) (c : Nat) (d : Dev) : (latch b c d).hiLatch = d.hiLatch := by unfold latch; split <;> rfl
@[simp] theorem latch_resets (b : Blk) (c : Nat) (d : Dev) : (latch b c d).resets = d.resets := by unfold latch; split <;> rfl
@[simp] theorem latch_log (b : Blk) (c : Nat) (d : Dev) : (latch b c d).log = d.log := by unfold latch; split <;> rfl
@[simp] theorem latch_cores (b : Blk) (c : Nat) (d : Dev) : (latch b c d).cores = d.cores := by unfold latch; split <;> rfl
@[simp] theorem latch_net (b : Blk) (c : Nat) (d : Dev) : (latch b c d).net = d.net := by unfold latch; split <;> rfl
@[simp] theorem latch_tck (b : Blk) (c : Nat) (d : Dev) : (latch b c d).tck = d.tck := by unfold latch; split <;> rfl
@[simp] theorem latch_press (b : Blk) (c : Nat) (d : Dev) : (latch b c d).press = d.press := by unfold latch; split <;> rfl
@[simp] theorem latch_snap (b : Blk) (c : Nat) (d : Dev) : (latch b c d).snap = d.snap := by unfold latch; split <;> rfl
@[simp] theorem latch_hostReads (b : Blk) (c : Nat) (d : Dev) : (latch b c d).hostReads = d.hostReads := by unfold latch; split <;> rfl
@[simp] theorem latch_jobs (b : Blk) (c : Nat) (d : Dev) : (latch b c d).jobs = d.jobs := by unfold latch; split <;> rfl
@[simp] theorem latch_fits (b : Blk) (c : Nat) (d : Dev) : (latch b c d).fits = d.fits := by unfold latch; split <;> rfl
@[simp] theorem latch_runs (b : Blk) (c : Nat) (d : Dev) : (latch b c d).runs = d.runs := by unfold latch; split <;> rfl
@[simp] theorem latch_fwStore (b : Blk) (c : Nat) (d : Dev) : (latch b c d).fwStore = d.fwStore := by unfold latch; split <;> rfl
@[simp] theorem latch_mod (b : Blk) (c : Nat) (d : Dev) : (latch b c d).mod_ = d.mod_ := by unfold latch; split <;> rfl
@[simp] theorem latch_host (b : Blk) (c : Nat) (d : Dev) : (latch b c d).host = d.host := by unfold latch; split <;> rfl
@[simp] theorem latch_tape (b : Blk) (c : Nat) (d : Dev) : (latch b c d).tape = d.tape := by unfold latch; split <;> rfl
@[simp] theorem latch_age (b : Blk) (c : Nat) (d : Dev) : (latch b c d).age = d.age := by unfold latch; split <;> rfl
@[simp] theorem latch_sel (b : Blk) (c : Nat) (d : Dev) : (latch b c d).sel = d.sel := by unfold latch; split <;> rfl
@[simp] theorem latch_sealing (b : Blk) (c : Nat) (d : Dev) : (latch b c d).sealing = d.sealing := by unfold latch; split <;> rfl
@[simp] theorem latch_lcwHeld (b : Blk) (c : Nat) (d : Dev) : (latch b c d).lcwHeld = d.lcwHeld := by unfold latch; split <;> rfl
@[simp] theorem latch_wperm (b : Blk) (c : Nat) (d : Dev) : (latch b c d).wperm = d.wperm := by unfold latch; split <;> rfl
@[simp] theorem latch_out (b : Blk) (c : Nat) (d : Dev) : (latch b c d).out = d.out := by unfold latch; split <;> rfl
@[simp] theorem latch_hostHeld (b : Blk) (c : Nat) (d : Dev) : (latch b c d).hostHeld = d.hostHeld := by unfold latch; split <;> rfl
@[simp] theorem latch_free (b : Blk) (c : Nat) (d : Dev) : (latch b c d).free = d.free := by unfold latch; split <;> rfl
@[simp] theorem latch_histBase (b : Blk) (c : Nat) (d : Dev) : (latch b c d).histBase = d.histBase := by unfold latch; split <;> rfl
@[simp] theorem latch_cycle (b : Blk) (c : Nat) (d : Dev) : (latch b c d).cycle = d.cycle := by unfold latch; split <;> rfl

@[simp] theorem setEvent_flash (b : Blk) (i : Nat) (d : Dev) : (setEvent b i d).flash = d.flash := rfl
@[simp] theorem setEvent_mem (b : Blk) (i : Nat) (d : Dev) : (setEvent b i d).mem = d.mem := rfl
@[simp] theorem setEvent_poison (b : Blk) (i : Nat) (d : Dev) : (setEvent b i d).poison = d.poison := rfl
@[simp] theorem setEvent_flaws (b : Blk) (i : Nat) (d : Dev) : (setEvent b i d).flaws = d.flaws := rfl
@[simp] theorem setEvent_wback (b : Blk) (i : Nat) (d : Dev) : (setEvent b i d).wback = d.wback := rfl
@[simp] theorem setEvent_eccOnce (b : Blk) (i : Nat) (d : Dev) : (setEvent b i d).eccOnce = d.eccOnce := rfl
@[simp] theorem setEvent_farMap (b : Blk) (i : Nat) (d : Dev) : (setEvent b i d).farMap = d.farMap := rfl
@[simp] theorem setEvent_binds (b : Blk) (i : Nat) (d : Dev) : (setEvent b i d).binds = d.binds := rfl
@[simp] theorem setEvent_parityBad (b : Blk) (i : Nat) (d : Dev) : (setEvent b i d).parityBad = d.parityBad := rfl
@[simp] theorem setEvent_safe (b : Blk) (i : Nat) (d : Dev) : (setEvent b i d).safe = d.safe := rfl
@[simp] theorem setEvent_hiLatch (b : Blk) (i : Nat) (d : Dev) : (setEvent b i d).hiLatch = d.hiLatch := rfl
@[simp] theorem setEvent_resets (b : Blk) (i : Nat) (d : Dev) : (setEvent b i d).resets = d.resets := rfl
@[simp] theorem setEvent_log (b : Blk) (i : Nat) (d : Dev) : (setEvent b i d).log = d.log := rfl
@[simp] theorem setEvent_cores (b : Blk) (i : Nat) (d : Dev) : (setEvent b i d).cores = d.cores := rfl
@[simp] theorem setEvent_net (b : Blk) (i : Nat) (d : Dev) : (setEvent b i d).net = d.net := rfl
@[simp] theorem setEvent_tck (b : Blk) (i : Nat) (d : Dev) : (setEvent b i d).tck = d.tck := rfl
@[simp] theorem setEvent_press (b : Blk) (i : Nat) (d : Dev) : (setEvent b i d).press = d.press := rfl
@[simp] theorem setEvent_snap (b : Blk) (i : Nat) (d : Dev) : (setEvent b i d).snap = d.snap := rfl
@[simp] theorem setEvent_hostReads (b : Blk) (i : Nat) (d : Dev) : (setEvent b i d).hostReads = d.hostReads := rfl
@[simp] theorem setEvent_jobs (b : Blk) (i : Nat) (d : Dev) : (setEvent b i d).jobs = d.jobs := rfl
@[simp] theorem setEvent_fits (b : Blk) (i : Nat) (d : Dev) : (setEvent b i d).fits = d.fits := rfl
@[simp] theorem setEvent_runs (b : Blk) (i : Nat) (d : Dev) : (setEvent b i d).runs = d.runs := rfl
@[simp] theorem setEvent_fwStore (b : Blk) (i : Nat) (d : Dev) : (setEvent b i d).fwStore = d.fwStore := rfl
@[simp] theorem setEvent_mod (b : Blk) (i : Nat) (d : Dev) : (setEvent b i d).mod_ = d.mod_ := rfl
@[simp] theorem setEvent_host (b : Blk) (i : Nat) (d : Dev) : (setEvent b i d).host = d.host := rfl
@[simp] theorem setEvent_tape (b : Blk) (i : Nat) (d : Dev) : (setEvent b i d).tape = d.tape := rfl
@[simp] theorem setEvent_age (b : Blk) (i : Nat) (d : Dev) : (setEvent b i d).age = d.age := rfl
@[simp] theorem setEvent_sel (b : Blk) (i : Nat) (d : Dev) : (setEvent b i d).sel = d.sel := rfl
@[simp] theorem setEvent_sealing (b : Blk) (i : Nat) (d : Dev) : (setEvent b i d).sealing = d.sealing := rfl
@[simp] theorem setEvent_lcwHeld (b : Blk) (i : Nat) (d : Dev) : (setEvent b i d).lcwHeld = d.lcwHeld := rfl
@[simp] theorem setEvent_wperm (b : Blk) (i : Nat) (d : Dev) : (setEvent b i d).wperm = d.wperm := rfl
@[simp] theorem setEvent_out (b : Blk) (i : Nat) (d : Dev) : (setEvent b i d).out = d.out := rfl
@[simp] theorem setEvent_hostHeld (b : Blk) (i : Nat) (d : Dev) : (setEvent b i d).hostHeld = d.hostHeld := rfl
@[simp] theorem setEvent_free (b : Blk) (i : Nat) (d : Dev) : (setEvent b i d).free = d.free := rfl
@[simp] theorem setEvent_histBase (b : Blk) (i : Nat) (d : Dev) : (setEvent b i d).histBase = d.histBase := rfl
@[simp] theorem setEvent_cycle (b : Blk) (i : Nat) (d : Dev) : (setEvent b i d).cycle = d.cycle := rfl

end Sys2Proof.Machine
end

