-- ==== Sys2Proof/Laws/Sparse.lean ====
section
/-! SUPPORT. The laws of the sparse stores: a read after a write, of any store, and every operation keeps the canonical form. -/

namespace Sys2Proof.Machine.Sparse

variable {α : Type} [DecidableEq α] {dflt : Nat → α}

/-- Every key of a store is above `k`. -/
def above (k : Nat) (m : List (Nat × α)) : Prop := ∀ p ∈ m, k < p.1

/-- No entry of a store is for `k`. -/
def lacks (k : Nat) (m : List (Nat × α)) : Prop := ∀ p ∈ m, p.1 ≠ k

omit [DecidableEq α] in
theorem lacks_filter (k : Nat) (m : List (Nat × α)) : lacks k (m.filter fun p => p.1 != k) := by
  intro p hp
  simpa using (List.mem_filter.1 hp).2

omit [DecidableEq α] in
theorem get_lacks {k : Nat} {m : List (Nat × α)} (h : lacks k m) : get dflt m k = dflt k := by
  induction m with
  | nil => rfl
  | cons p m ih =>
    obtain ⟨a, v⟩ := p
    simp only [get, if_neg (h (a, v) (List.mem_cons_self ..))]
    exact ih fun q hq => h q (List.mem_cons_of_mem _ hq)

omit [DecidableEq α] in
theorem get_filter_ne {k j : Nat} (m : List (Nat × α)) (h : k ≠ j) : get dflt (m.filter fun p => p.1 != k) j = get dflt m j := by
  induction m with
  | nil => rfl
  | cons p m ih =>
    obtain ⟨a, v⟩ := p
    by_cases ha : a = k
    · subst ha; simp [List.filter, get, h, ih]
    · rw [List.filter_cons_of_pos (by simpa using ha)]; simp only [get, ih]

theorem get_consUnless {k j : Nat} {v : α} {m : List (Nat × α)} (h : lacks k m) :
    get dflt (consUnless dflt k v m) j = if k = j then v else get dflt m j := by
  unfold consUnless
  split
  · next hv => split
               · next hj => rw [← hj, get_lacks h, hv]
               · rfl
  · simp [get]

theorem get_put {m : List (Nat × α)} {k : Nat} (h : lacks k m) (j : Nat) (v : α) :
    get dflt (put dflt m k v) j = if k = j then v else get dflt m j := by
  induction m with
  | nil => exact get_consUnless h
  | cons p m ih =>
    obtain ⟨a, x⟩ := p
    have hm : lacks k m := fun q hq => h q (List.mem_cons_of_mem _ hq)
    simp only [put]
    split
    · exact get_consUnless h
    · simp only [get, ih hm]
      split
      · next hj => subst hj; simp [Ne.symm (h (a, x) (List.mem_cons_self ..))]
      · rfl

/-- A read of the key written gives the value written; another key reads as before. -/
theorem get_set (m : List (Nat × α)) (k j : Nat) (v : α) : get dflt (set dflt m k v) j = if k = j then v else get dflt m j := by
  rw [set, get_put (lacks_filter k m)]
  split
  · rfl
  · next h => rw [get_filter_ne m h]

@[simp] theorem get_set_self (m : List (Nat × α)) (k : Nat) (v : α) : get dflt (set dflt m k v) k = v := by simp [get_set]

theorem get_set_ne {k j : Nat} (m : List (Nat × α)) (v : α) (h : k ≠ j) : get dflt (set dflt m k v) j = get dflt m j := by simp [get_set, h]

/-! ### The canonical form -/

theorem wf_cons {a : Nat} {v : α} {m : List (Nat × α)} :
    wf dflt ((a, v) :: m) = true ↔ v ≠ dflt a ∧ above a m ∧ wf dflt m = true := by
  induction m generalizing a v with
  | nil => simp [wf, above]
  | cons p m ih =>
    obtain ⟨b, w⟩ := p
    constructor
    · intro h
      simp only [wf, Bool.and_eq_true, decide_eq_true_eq] at h
      refine ⟨h.1.1, ?_, h.2⟩
      intro q hq
      rcases List.mem_cons.1 hq with rfl | hq
      · exact h.1.2
      · exact Nat.lt_trans h.1.2 ((ih.1 h.2).2.1 q hq)
    · intro h
      simp only [wf, Bool.and_eq_true, decide_eq_true_eq]
      exact ⟨⟨h.1, h.2.1 (b, w) (List.mem_cons_self ..)⟩, h.2.2⟩

omit [DecidableEq α] in
theorem above_cons {a k : Nat} {x : α} {m : List (Nat × α)} (hk : k < a) (ha : above a m) : above k ((a, x) :: m) := by
  intro q hq
  rcases List.mem_cons.1 hq with rfl | hq
  · exact hk
  · exact Nat.lt_trans hk (ha q hq)

omit [DecidableEq α] in
theorem above_lacks {k : Nat} {m : List (Nat × α)} (h : above k m) : lacks k m := fun p hp => Nat.ne_of_gt (h p hp)

theorem above_consUnless {a k : Nat} {v : α} {m : List (Nat × α)} (hk : a < k) (h : above a m) : above a (consUnless dflt k v m) := by
  intro q hq
  unfold consUnless at hq
  split at hq
  · exact h q hq
  · rcases List.mem_cons.1 hq with rfl | hq
    · exact hk
    · exact h q hq

theorem above_put {a k : Nat} {v : α} {m : List (Nat × α)} (hk : a < k) (h : above a m) : above a (put dflt m k v) := by
  induction m with
  | nil => exact above_consUnless hk h
  | cons p m ih =>
    obtain ⟨b, x⟩ := p
    have hm : above a m := fun q hq => h q (List.mem_cons_of_mem _ hq)
    simp only [put]
    split
    · exact above_consUnless hk h
    · intro q hq
      rcases List.mem_cons.1 hq with rfl | hq
      · exact h _ (List.mem_cons_self ..)
      · exact ih hm q hq

theorem wf_consUnless {k : Nat} {v : α} {m : List (Nat × α)} (ha : above k m) (h : wf dflt m = true) :
    wf dflt (consUnless dflt k v m) = true := by
  unfold consUnless
  split
  · exact h
  · next hv => exact wf_cons.2 ⟨hv, ha, h⟩

theorem wf_put {m : List (Nat × α)} {k : Nat} (hl : lacks k m) (h : wf dflt m = true) (v : α) : wf dflt (put dflt m k v) = true := by
  induction m with
  | nil => exact wf_consUnless (fun _ hq => by cases hq) h
  | cons p m ih =>
    obtain ⟨a, x⟩ := p
    obtain ⟨hx, ha, hm⟩ := wf_cons.1 h
    have hak : a ≠ k := hl (a, x) (List.mem_cons_self ..)
    simp only [put]
    split
    · next hk => exact wf_consUnless (above_cons hk ha) h
    · next hk => exact wf_cons.2 ⟨hx, above_put (by omega) ha, ih (fun q hq => hl q (List.mem_cons_of_mem _ hq)) hm⟩

/-- Leaving entries out keeps the canonical form. -/
theorem wf_filter {m : List (Nat × α)} (f : Nat × α → Bool) (h : wf dflt m = true) : wf dflt (m.filter f) = true := by
  induction m with
  | nil => rfl
  | cons p m ih =>
    obtain ⟨a, x⟩ := p
    obtain ⟨hx, ha, hm⟩ := wf_cons.1 h
    simp only [List.filter]
    split
    · exact wf_cons.2 ⟨hx, fun q hq => ha q (List.mem_filter.1 hq).1, ih hm⟩
    · exact ih hm

/-- A write keeps the canonical form. -/
theorem wf_set {m : List (Nat × α)} (h : wf dflt m = true) (k : Nat) (v : α) : wf dflt (set dflt m k v) = true :=
  wf_put (lacks_filter k m) (wf_filter _ h) v

theorem wf_clearRange {m : List (Nat × α)} (lo n : Nat) (h : wf dflt m = true) : wf dflt (clearRange lo n m) = true := wf_filter _ h

/-- Two canonical stores that read alike are one. -/
theorem ext {m n : List (Nat × α)} (hm : wf dflt m = true) (hn : wf dflt n = true) (h : ∀ k, get dflt m k = get dflt n k) : m = n := by
  induction m generalizing n with
  | nil =>
    cases n with
    | nil => rfl
    | cons q n =>
      obtain ⟨b, w⟩ := q
      have := h b
      simp only [get, if_true] at this
      exact absurd this.symm (wf_cons.1 hn).1
  | cons p m ih =>
    obtain ⟨a, v⟩ := p
    obtain ⟨hv, ha, hm'⟩ := wf_cons.1 hm
    cases n with
    | nil =>
      have := h a
      simp only [get, if_true] at this
      exact absurd this hv
    | cons q n =>
      obtain ⟨b, w⟩ := q
      obtain ⟨hw, hb, hn'⟩ := wf_cons.1 hn
      have hab : a = b := by
        rcases Nat.lt_trichotomy a b with hlt | heq | hgt
        · have := h a
          simp only [get, if_true, if_neg (Nat.ne_of_gt hlt), get_lacks (above_lacks fun q hq => Nat.lt_trans hlt (hb q hq))] at this
          exact absurd this hv
        · exact heq
        · have := h b
          simp only [get, if_true, if_neg (Nat.ne_of_gt hgt), get_lacks (above_lacks fun q hq => Nat.lt_trans hgt (ha q hq))] at this
          exact absurd this.symm hw
      subst hab
      have hvw : v = w := by have := h a; simpa [get] using this
      subst hvw
      refine congrArg _ (ih hm' hn' fun k => ?_)
      by_cases hk : a = k
      · subst hk; rw [get_lacks (above_lacks ha), get_lacks (above_lacks hb)]
      · have := h k; simpa [get, hk] using this

/-! ### Marks -/

theorem mem_mark (m : List Nat) (k j : Nat) : j ∈ mark m k ↔ j = k ∨ j ∈ m := by
  induction m with
  | nil => simp [mark]
  | cons a m ih =>
    simp only [mark]
    split
    · simp
    · split
      · next h => subst h; simp
      · simp only [List.mem_cons, ih]
        constructor
        · rintro (h | h | h) <;> simp [h]
        · rintro (h | h | h) <;> simp [h]

theorem mem_unmark (m : List Nat) (k j : Nat) : j ∈ unmark m k ↔ j ∈ m ∧ j ≠ k := by simp [unmark]

end Sys2Proof.Machine.Sparse
end

