-- ==== Sys2Proof/Laws/Ops.lean ====
section
/-! SUPPORT. The shared operations: what a register or a byte of memory reads after a write of it or of another, and the canonical form of
the stores. -/

namespace Sys2Proof.Machine

/-! ### Registers -/

/-- A register after a write of it, or of another. -/
theorem rdKey_wrKey (k j v : Nat) (d : Dev) : rdKey (wrKey k v d) j = if k = j then v % 2 ^ 32 else rdKey d j := by
  simp only [rdKey, wrKey_regs, Sparse.get_set]
  split <;> simp

@[simp] theorem rdKey_wrKey_self (k v : Nat) (d : Dev) : rdKey (wrKey k v d) k = v % 2 ^ 32 := by simp [rdKey_wrKey]
theorem rdKey_wrKey_ne {k j : Nat} (h : k ≠ j) (v : Nat) (d : Dev) : rdKey (wrKey k v d) j = rdKey d j := by simp [rdKey_wrKey, h]

theorem rdKey_lt (d : Dev) (k : Nat) : rdKey d k < 2 ^ 32 := (Sparse.get regReset d.regs k).isLt

@[simp] theorem rd_wr_self (b : Blk) (o v : Nat) (d : Dev) : rd b o (wr b o v d) = v % 2 ^ 32 := by simp [rd, wr]
@[simp] theorem rdB_wrB_self (b : Blk) (o i v : Nat) (d : Dev) : rdB b o i (wrB b o i v d) = v % 2 ^ 32 := by simp [rdB, wrB]

theorem putBits_lt {n : Nat} (lo len v : Nat) (hn : n < 2 ^ 32) (h : lo + len ≤ 32) : putBits n lo len v < 2 ^ 32 := by
  apply Nat.lt_pow_two_of_testBit
  intro i hi
  rw [testBit_putBits, if_neg (by omega)]
  exact Nat.testBit_lt_two_pow (Nat.lt_of_lt_of_le hn (Nat.pow_le_pow_right (by omega) hi))

/-- A field of a register after it is written. -/
theorem rdF_wrF_self (b : Blk) (o lo len v : Nat) (d : Dev) (h : lo + len ≤ 32) : rdF b o lo len (wrF b o lo len v d) = v % 2 ^ len := by
  have := putBits_lt lo len v (rdKey_lt d (regKey b o)) h
  simp only [rdF, wrF, wr, rdKey_wrKey_self, rd] at *
  rw [Nat.mod_eq_of_lt this, bits_putBits]

/-- The whole register after a field of it is written. -/
theorem rd_wrF_self (b : Blk) (o lo len v : Nat) (d : Dev) (h : lo + len ≤ 32) :
    rd b o (wrF b o lo len v d) = putBits (rd b o d) lo len v := by
  have := putBits_lt lo len v (rdKey_lt d (regKey b o)) h
  simp only [wrF, wr, rdKey_wrKey_self, rd] at *
  exact Nat.mod_eq_of_lt this

theorem testBit_b2n (v : Bool) : (b2n v).testBit 0 = v := by cases v <;> rfl

@[simp] theorem rdBit_wrBit_self (b : Blk) (o i : Nat) (v : Bool) (d : Dev) (h : i < 32) : rdBit b o i (wrBit b o i v d) = v := by
  simp only [rdBit, wrBit, bit]
  rw [rd_wrF_self _ _ _ _ _ _ (by omega), testBit_putBits, if_pos (by omega), Nat.sub_self, testBit_b2n]

/-- A write of another register leaves a register. -/
theorem rd_wr_ne {b b' : Blk} {o o' : Nat} (h : regKey b' o' ≠ regKey b o) (v : Nat) (d : Dev) : rd b o (wr b' o' v d) = rd b o d :=
  rdKey_wrKey_ne h v d

theorem canonical_wrKey (k v : Nat) {d : Dev} (h : canonical d = true) : canonical (wrKey k v d) = true := by
  simp only [canonical, Registers.wf, Memory.wf, Bool.and_eq_true] at *
  exact ⟨Sparse.wf_set h.1 _ _, h.2⟩

/-! ### Bytes of the memories -/

/-- A byte after a write of it, or of another. -/
theorem memRd_memWr (k j : Nat) (v : Byte) (d : Dev) : memRd (memWr k v d) j = if k = j then v else memRd d j := by
  simp only [memRd, memWr_mem, Sparse.get_set]

theorem canonical_memWr (k : Nat) (v : Byte) {d : Dev} (h : canonical d = true) : canonical (memWr k v d) = true := by
  simp only [canonical, Registers.wf, Memory.wf, Bool.and_eq_true] at *
  exact ⟨h.1, Sparse.wf_set h.2 _ _⟩

@[simp] theorem memRd_wrKey (k v j : Nat) (d : Dev) : memRd (wrKey k v d) j = memRd d j := rfl
@[simp] theorem rdKey_memWr (k j : Nat) (v : Byte) (d : Dev) : rdKey (memWr k v d) j = rdKey d j := rfl

/-! ### Faults and events (R46, R109) -/

/-- The first fault sets VALID, COUNT 1 and its code. -/
theorem latch_first {b : Blk} {d : Dev} (code : Nat) (h : faultValid b d = false) :
    rd b R_FAULT (latch b code d) = code % 65536 + 65536 + 2 ^ 31 := by
  simp only [latch, h, Bool.false_eq_true, if_false, rd_wr_self]
  omega

/-- A later fault leaves the code and counts up to 255. -/
theorem latch_later {b : Blk} {d : Dev} (code : Nat) (h : faultValid b d = true) :
    rd b R_FAULT (latch b code d) = putBits (rd b R_FAULT d) 16 8 (sat 255 (rdF b R_FAULT 16 8 d + 1)) := by
  simp only [latch, h, if_true]
  exact rd_wrF_self _ _ _ _ _ _ (by omega)

end Sys2Proof.Machine
end

