-- ==== Sys2Proof/Laws/Frame.lean ====
section
/-! SUPPORT. Frames of the shared operations: what a write of registers, a latched fault, an event, a log entry or a message leaves as it was. -/

namespace Sys2Proof.Machine

theorem regsKept_refl (ks : List Nat) (d : Dev) : regsKept ks d d := fun _ _ => rfl

theorem regsKept.wrKey {ks : List Nat} {d e : Dev} (h : regsKept ks d e) {k : Nat} (hk : k ∈ ks) (v : Nat) : regsKept ks d (wrKey k v e) := by
  intro j hj
  have hne : k ≠ j := fun e => hj (e ▸ hk)
  rw [rdKey_wrKey_ne hne, h j hj]

theorem regsKept.trans {ks : List Nat} {d e f : Dev} (h : regsKept ks d e) (h' : regsKept ks e f) : regsKept ks d f :=
  fun j hj => (h' j hj).trans (h j hj)

theorem regsKept.mono {ks js : List Nat} {d e : Dev} (h : regsKept ks d e) (hs : ∀ k ∈ ks, k ∈ js) : regsKept js d e :=
  fun j hj => h j fun hk => hj (hs j hk)

/-! ### Nothing but registers -/

theorem onlyRegs_refl (ks : List Nat) (d : Dev) : onlyRegs ks d d := ⟨rfl, regsKept_refl ks d⟩

theorem onlyRegs.wrKey {ks : List Nat} {d e : Dev} (h : onlyRegs ks d e) {k : Nat} (hk : k ∈ ks) (v : Nat) : onlyRegs ks d (wrKey k v e) :=
  ⟨h.1, h.2.wrKey hk v⟩

theorem onlyRegs.wr {ks : List Nat} {d e : Dev} (h : onlyRegs ks d e) {b : Blk} {o : Nat} (hk : regKey b o ∈ ks) (v : Nat) :
    onlyRegs ks d (wr b o v e) := h.wrKey hk v

theorem onlyRegs.wrB {ks : List Nat} {d e : Dev} (h : onlyRegs ks d e) {b : Blk} {o i : Nat} (hk : bankKey b o i ∈ ks) (v : Nat) :
    onlyRegs ks d (wrB b o i v e) := h.wrKey hk v

theorem onlyRegs.wrF {ks : List Nat} {d e : Dev} (h : onlyRegs ks d e) {b : Blk} {o : Nat} (hk : regKey b o ∈ ks) (lo len v : Nat) :
    onlyRegs ks d (wrF b o lo len v e) := h.wrKey hk _

theorem onlyRegs.wrBit {ks : List Nat} {d e : Dev} (h : onlyRegs ks d e) {b : Blk} {o : Nat} (hk : regKey b o ∈ ks) (i : Nat) (v : Bool) :
    onlyRegs ks d (wrBit b o i v e) := h.wrKey hk _

theorem onlyRegs.wr64 {ks : List Nat} {d e : Dev} (h : onlyRegs ks d e) {b : Blk} {o : Nat} (hl : regKey b o ∈ ks) (hh : regKey b (o + 4) ∈ ks) (v : Nat) :
    onlyRegs ks d (wr64 b o v e) := (h.wrKey hl _).wrKey hh _

theorem onlyRegs.bump {ks : List Nat} {d e : Dev} (h : onlyRegs ks d e) {b : Blk} {o : Nat} (hk : regKey b o ∈ ks) (n : Nat) :
    onlyRegs ks d (bump b o n e) := h.wrKey hk _

theorem onlyRegs.bump64 {ks : List Nat} {d e : Dev} (h : onlyRegs ks d e) {b : Blk} {o : Nat} (hl : regKey b o ∈ ks) (hh : regKey b (o + 4) ∈ ks)
    (n : Nat) : onlyRegs ks d (bump64 b o n e) := h.wr64 hl hh _

theorem onlyRegs.setEvent {ks : List Nat} {d e : Dev} (h : onlyRegs ks d e) {b : Blk} (hk : regKey b R_EVENT ∈ ks) (i : Nat) :
    onlyRegs ks d (setEvent b i e) := h.wrBit hk i true

theorem onlyRegs.ite {ks : List Nat} {d e f : Dev} {p : Prop} [Decidable p] (h : p → onlyRegs ks d e) (h' : ¬ p → onlyRegs ks d f) :
    onlyRegs ks d (if p then e else f) := by
  split
  · next hp => exact h hp
  · next hp => exact h' hp

theorem onlyRegs.latch {ks : List Nat} {d e : Dev} (h : onlyRegs ks d e) {b : Blk} (hk : regKey b R_FAULT ∈ ks) (code : Nat) :
    onlyRegs ks d (latch b code e) := .ite (fun _ => h.wrF hk ..) (fun _ => h.wr hk _)

theorem onlyRegs.latchWith {ks : List Nat} {d e : Dev} (h : onlyRegs ks d e) {b : Blk} (hk : regKey b R_FAULT ∈ ks) (code : Nat) {r : Dev → Dev}
    (hr : onlyRegs ks d (r e)) : onlyRegs ks d (latchWith b code r e) := by
  unfold Sys2Proof.Machine.latchWith
  split
  · exact h.latch hk code
  · exact hr.latch hk code

theorem onlyRegs.mono {ks js : List Nat} {d e : Dev} (h : onlyRegs ks d e) (hs : ∀ k ∈ ks, k ∈ js) : onlyRegs js d e := ⟨h.1, h.2.mono hs⟩

theorem onlyRegs.trans {ks : List Nat} {d e f : Dev} (h : onlyRegs ks d e) (h' : onlyRegs ks e f) : onlyRegs ks d f := by
  refine ⟨?_, h.2.trans h'.2⟩
  have h1 := h.1
  have h2 := h'.1
  rw [← h2] at h1
  exact h1

theorem onlyRegs.memRd {ks : List Nat} {d e : Dev} (h : onlyRegs ks d e) (a : Nat) : memRd e a = memRd d a := by
  rw [← h.1]; rfl

/-! ### Nothing but registers and messages -/

theorem onlyRegs.withOut {ks : List Nat} {d e : Dev} (h : onlyRegs ks d e) (o : List Out) : onlyRegsOut ks d { e with out := o } := by
  refine ⟨?_, h.2⟩
  have h1 := congrArg (fun x : Dev => { x with out := d.out }) h.1
  exact h1

theorem onlyRegsOut_refl (ks : List Nat) (d : Dev) : onlyRegsOut ks d d := ⟨rfl, regsKept_refl ks d⟩

theorem onlyRegsOut.wrKey {ks : List Nat} {d e : Dev} (h : onlyRegsOut ks d e) {k : Nat} (hk : k ∈ ks) (v : Nat) : onlyRegsOut ks d (wrKey k v e) :=
  ⟨h.1, h.2.wrKey hk v⟩

theorem onlyRegsOut.withOut {ks : List Nat} {d e : Dev} (h : onlyRegsOut ks d e) (o : List Out) : onlyRegsOut ks d { e with out := o } := ⟨h.1, h.2⟩

/-- A fault that latches is valid. -/
theorem faultValid_latch (b : Blk) (code : Nat) (d : Dev) : faultValid b (latch b code d) = true := by
  cases h : faultValid b d
  · simp only [faultValid, rdBit, latch_first code h, bit]
    have h1 : (code % 65536 + 65536 + 2 ^ 31) = 2 ^ 31 * 1 + (code % 65536 + 65536) := by omega
    rw [h1, Nat.testBit_two_pow_mul_add _ (by omega)]
    simp
  · simp only [faultValid, rdBit, latch_later code h, bit, testBit_putBits] at h ⊢
    simpa using h

theorem faultValid_latchWith (b : Blk) (code : Nat) (r : Dev → Dev) (d : Dev) : faultValid b (latchWith b code r d) = true :=
  faultValid_latch b code _

end Sys2Proof.Machine
end

