-- ==== Sys2Proof/Laws/Memory.lean ====
section
/-! SUPPORT. The memories: every operation on them keeps the canonical form, what a read and a store of bytes leave, and what each of them leaves
as it was. -/

namespace Sys2Proof.Machine

/-! ### The canonical form

An update is canonical if it keeps the form; the updates of memory and registers are made of two that do. -/

/-- An update keeps the canonical form of registers and memories. -/
def keepsForm (f : Dev → Dev) : Prop := ∀ d, canonical d = true → canonical (f d) = true

theorem keepsForm.comp {f g : Dev → Dev} (hg : keepsForm g) (hf : keepsForm f) : keepsForm fun d => g (f d) := fun d h => hg _ (hf d h)

theorem keepsForm.ite {p : Dev → Prop} [∀ d, Decidable (p d)] {f g : Dev → Dev} (hf : keepsForm f) (hg : keepsForm g) :
    keepsForm fun d => if p d then f d else g d := by
  intro d h
  show canonical (if p d then f d else g d) = true
  split
  · exact hf d h
  · exact hg d h

theorem keepsForm.foldl {α : Type} {f : Dev → α → Dev} (hf : ∀ x, keepsForm fun d => f d x) (xs : List α) : keepsForm fun d => xs.foldl f d := by
  intro d h
  show canonical (xs.foldl f d) = true
  induction xs generalizing d with
  | nil => exact h
  | cons x xs ih => exact ih _ (hf x d h)

/-- What touches neither registers nor memory keeps the form. -/
theorem keepsForm.other {f : Dev → Dev} (hr : ∀ d, (f d).regs = d.regs) (hm : ∀ d, (f d).mem = d.mem) : keepsForm f := by
  intro d h
  simpa only [canonical, hr, hm] using h

theorem keepsForm_wrKey (k v : Nat) : keepsForm (wrKey k v) := fun _ h => canonical_wrKey k v h
theorem keepsForm_memWr (k : Nat) (v : Byte) : keepsForm (memWr k v) := fun _ h => canonical_memWr k v h
theorem keepsForm_wr (b : Blk) (o v : Nat) : keepsForm (wr b o v) := keepsForm_wrKey _ v
theorem keepsForm_wrF (b : Blk) (o lo len v : Nat) : keepsForm (wrF b o lo len v) := fun _ h => canonical_wrKey _ _ h
theorem keepsForm_wr64 (b : Blk) (o v : Nat) : keepsForm (wr64 b o v) := fun _ h => canonical_wrKey _ _ (canonical_wrKey _ _ h)
theorem keepsForm_bump (b : Blk) (o n : Nat) : keepsForm (bump b o n) := fun _ h => canonical_wrKey _ _ h
theorem keepsForm_bump64 (b : Blk) (o n : Nat) : keepsForm (bump64 b o n) := fun d h => keepsForm_wr64 b o _ d h
theorem keepsForm_bumpSat (b : Blk) (o lo len : Nat) : keepsForm (bumpSat b o lo len) := fun _ h => canonical_wrKey _ _ h
theorem keepsForm_latch (b : Blk) (code : Nat) : keepsForm (latch b code) := by
  intro d h
  unfold latch
  split
  · exact keepsForm_wrF b _ _ _ _ d h
  · exact keepsForm_wr b _ _ d h
theorem keepsForm_latchWith (b : Blk) (code : Nat) {r : Dev → Dev} (hr : keepsForm r) : keepsForm (latchWith b code r) := by
  intro d h
  unfold latchWith
  refine keepsForm_latch b code _ ?_
  split
  · exact h
  · exact hr d h
theorem keepsForm_setFlaw (g n : Nat) : keepsForm (setFlaw g n) := .other (fun _ => rfl) fun _ => rfl
theorem keepsForm_freeNext : keepsForm freeNext := .other (fun _ => rfl) fun _ => rfl

theorem keepsForm_windowLatch (b : Blk) (c : Prop) [Decidable c] (d : Dev) (x : List Nat) (h : canonical d = true) :
    canonical (if c then latch b cEccCorrected { d with eccOnce := x } else d) = true := by
  split
  · exact keepsForm_latch b cEccCorrected { d with eccOnce := x } h
  · exact h

theorem keepsForm_eccCount (b : Blk) : keepsForm (eccCount b) :=
  fun d h => keepsForm_windowLatch b _ _ _ (keepsForm_bumpSat b ECC_WIN 0 16 _ (keepsForm_bump64 b ECC_CE_LO 1 d h))

theorem keepsForm_eccCorrect (b : Blk) (g : Nat) : keepsForm (eccCorrect b g) :=
  fun d h => keepsForm_wr64 b _ _ _ (keepsForm_eccCount b d h)

theorem keepsForm_eccFail (b : Blk) (kind g : Nat) : keepsForm (eccFail b kind g) := by
  intro d h
  have h1 := keepsForm_bump b ECC_UE 1 d h
  exact keepsForm_latchWith b cEccUncorrected
    (fun e he => keepsForm_wr b ECC_SYND _ _ (keepsForm_wr64 b ECC_ADDR_LO (keyAddr g e) e he)) _ h1

theorem keepsForm_freeGran (g : Nat) : keepsForm (freeGran g) :=
  .foldl (f := fun d i => freeNext (memWr (g + i) (BitVec.ofNat 8 (freeNow d)) d))
    (fun i d h => keepsForm_freeNext _ (canonical_memWr (g + i) (BitVec.ofNat 8 (freeNow d)) h)) _

theorem keepsForm_eccCheck (kind g : Nat) : keepsForm (eccCheck kind g) := by
  intro d h
  unfold eccCheck
  have hg : canonical (setFlaw g 0 (freeGran g (freeNext d))) = true := keepsForm_setFlaw _ _ _ (keepsForm_freeGran g _ h)
  have hn : canonical (freeNext d) = true := h
  dsimp only
  split
  · exact h
  split
  · exact keepsForm_eccCorrect _ g d h
  split
  · exact keepsForm_eccFail _ kind g d h
  split
  · exact keepsForm_eccFail _ kind g _ hn
  split
  · exact keepsForm_wr64 _ _ _ _ (keepsForm_eccCount _ _ hg)
  · exact hg

theorem keepsForm_countAccess (wrote : Bool) (k n : Nat) : keepsForm (countAccess wrote k n) := by
  intro d h
  unfold countAccess
  dsimp only
  split
  · exact keepsForm_bump64 _ _ _ d h
  · exact keepsForm_bump64 _ _ _ _ (keepsForm_bump64 _ _ _ d h)
  · exact h

theorem keepsForm_touchRead (k n g : Nat) : keepsForm (touchRead k n g) := by
  intro d h
  unfold touchRead
  split
  · exact h
  · exact keepsForm_eccCheck 1 g _ (keepsForm_countAccess false g _ d h)

theorem keepsForm_injectEcc (g : Nat) : keepsForm (injectEcc g) := by
  intro d h
  unfold injectEcc
  dsimp only
  split
  · have h1 := keepsForm_wrF (keyBlk g d) ECC_INJ 3 1 (b2n false) d h
    split <;> exact h1
  · exact h

theorem keepsForm_setPoison (g : Nat) : keepsForm (setPoison g) := .other (fun _ => rfl) fun _ => rfl
theorem keepsForm_clearPoison (g : Nat) : keepsForm (clearPoison g) := .other (fun _ => rfl) fun _ => rfl

theorem keepsForm_touchWrite (k : Nat) (ps : List Bool) (g : Nat) : keepsForm (touchWrite k ps g) := by
  intro d h
  unfold touchWrite
  dsimp only
  refine keepsForm_injectEcc g _ (keepsForm_countAccess true g _ _ ?_)
  have h1 : canonical (if (inGran k ps.length g == granSize g) = true then d else eccCheck 1 g d) = true := by
    split
    · exact h
    · exact keepsForm_eccCheck 1 g d h
  generalize (if (inGran k ps.length g == granSize g) = true then d else eccCheck 1 g d) = e at h1
  split
  · exact keepsForm_setPoison g _ h1
  split
  · exact keepsForm_clearPoison g _ h1
  · exact h1

theorem keepsForm_storeBytes (bs : List Byte) (k : Nat) : keepsForm (storeBytes k bs) := by
  induction bs generalizing k with
  | nil => exact fun _ h => h
  | cons b bs ih =>
    intro d h
    refine ih (k + 1) _ ?_
    split
    · exact h
    · exact canonical_memWr k b h

/-- A read of the memories keeps their form. -/
theorem keepsForm_readEffects (k n : Nat) : keepsForm (readEffects k n) := .foldl (fun g => keepsForm_touchRead k n g) _

/-- A write of the memories keeps their form, so that equal memories are equal lists. -/
theorem keepsForm_memWrite (k : Nat) (bs : List Byte) (ps : List Bool) : keepsForm (memWrite k bs ps) := by
  intro d h
  refine keepsForm_storeBytes bs k _ ?_
  refine keepsForm.foldl (f := fun d g => if keyFailed g d then d else touchWrite k (ps.take bs.length) g d) (fun g e he => ?_) _ d h
  show canonical (if keyFailed g e then e else touchWrite k (ps.take bs.length) g e) = true
  split
  · exact he
  · exact keepsForm_touchWrite _ _ _ _ he

theorem keepsForm_memPut (k : Nat) (bs : List Byte) : keepsForm (memPut k bs) := keepsForm_memWrite k bs _
theorem keepsForm_memPutNat (k n v : Nat) : keepsForm (memPutNat k n v) := keepsForm_memPut k _

/-- A reset that clears a range of memory keeps the form. -/
theorem wf_clearedRange {m : List Host.Cell} (lo n : Nat) (h : Memory.wf m = true) : Memory.wf (Sparse.clearRange lo n m) = true :=
  Sparse.wf_clearRange lo n h

/-- The reset of a core keeps the form. -/
theorem keepsForm_wipeCore (c : CoreRef) : keepsForm (wipeCore c) := by
  intro d h
  simp only [canonical, Bool.and_eq_true] at h ⊢
  exact ⟨h.1, wf_clearedRange _ _ h.2⟩

/-! ### Bytes after a store -/

/-- Bytes stored outside a place leave it. -/
theorem memRd_storeBytes_outside (bs : List Byte) (k a : Nat) (d : Dev) (h : ¬ (k ≤ a ∧ a < k + bs.length)) :
    memRd (storeBytes k bs d) a = memRd d a := by
  induction bs generalizing k d with
  | nil => rfl
  | cons b bs ih =>
    simp only [List.length_cons] at h
    rw [storeBytes, ih (k + 1) _ (by omega)]
    split
    · rfl
    · rw [memRd_memWr, if_neg (by omega)]

/-- Where no byte lies in a failed channel, each byte stored is read back. -/
theorem memRd_storeBytes (bs : List Byte) (k i : Nat) (d : Dev) (hi : i < bs.length)
    (hf : ∀ j e, e.regs = d.regs → e.farMap = d.farMap → e.flash = d.flash → keyFailed (k + j) e = false) :
    memRd (storeBytes k bs d) (k + i) = bs.getD i 0 := by
  induction bs generalizing k i d with
  | nil => cases hi
  | cons b bs ih =>
    have h0 : keyFailed k d = false := hf 0 d rfl rfl rfl
    rw [storeBytes, h0, if_neg (by decide)]
    cases i with
    | zero =>
      rw [memRd_storeBytes_outside _ _ _ _ (by omega), Nat.add_zero, memRd_memWr, if_pos rfl]
      rfl
    | succ i =>
      have hs := ih (k + 1) i (memWr k b d) (by simpa using hi) (fun j e h1 h2 h3 => by
        have := hf (j + 1) e h1 h2 h3
        rwa [Nat.add_comm j 1, ← Nat.add_assoc] at this)
      rw [show k + (i + 1) = k + 1 + i by omega, hs]
      rfl

end Sys2Proof.Machine
end

