-- ==== Sys2Proof/Laws/Record.lean ====
section
/-! SUPPORT. Lengths: SHAKE256 answers as many bytes as it is asked for, and the sections of a checkpoint record have the sizes of R403. -/

namespace Sys2Proof.Machine
open Keccak

theorem length_round (s : List Lane) (k : Lane) : (Keccak.round s k).length = 25 := by
  have h : (chi (rhoPi (theta s))).length = 25 := by rw [chi, List.length_map, List.length_range]
  unfold Keccak.round
  split
  · rename_i e; rw [e] at h; exact h
  · rename_i e; rw [e] at h; exact h

theorem length_permute (s : List Lane) (h : s.length = 25) : (permute s).length = 25 := by
  have go : ∀ (ks : List Lane) (s : List Lane), s.length = 25 → (ks.foldl Keccak.round s).length = 25 := by
    intro ks
    induction ks with
    | nil => intro s h; exact h
    | cons k ks ih => intro s _; exact ih _ (length_round s k)
  exact go rc s h

theorem length_absorbAll (k : Nat) (s : List Lane) (bs : List Byte) (h : s.length = 25) : (absorbAll k s bs).length = 25 := by
  induction k generalizing s bs with
  | zero => exact h
  | succ k ih =>
    refine ih _ _ ?_
    unfold absorb
    exact length_permute _ (by rw [List.length_map, List.length_range])

theorem length_squeeze (k : Nat) (s : List Lane) (h : s.length = 25) : (squeeze k s).length = 136 * k := by
  induction k generalizing s with
  | zero => rfl
  | succ k ih =>
    unfold squeeze
    rw [List.length_append, ih _ (length_permute s h), List.length_flatMap]
    simp only [length_toBytes, List.map_const', List.sum_replicate_nat, List.length_take, h]
    omega

theorem length_shake256 (m : List Byte) (n : Nat) : (shake256 m n).length = n := by
  unfold shake256
  rw [List.length_take, length_squeeze _ _ (length_absorbAll _ _ _ (List.length_replicate ..))]
  unfold ceilDiv
  omega

theorem flagBytes_length (ctx : Nat) (d : Dev) : (flagBytes ctx d).length = 131072 := by
  unfold flagBytes memBytes
  rw [List.length_append, List.length_map, List.length_range, length_toBytes]

theorem trkBytes_length (cfg cur : Nat → Nat) (hist : Nat → Nat → Nat) (d : Dev) : (trkBytes cfg cur hist d).length = 4608 := by
  unfold trkBytes
  rw [List.length_flatMap]
  simp only [List.length_append, List.length_flatMap, length_toBytes, List.map_const', List.sum_replicate_nat, List.length_range]

/-- The header takes 256 bytes (R403). -/
theorem recHeader_length (ctx : Nat) (ss : List (List Byte)) (d : Dev) (h : ss.length = 9) : (recHeader ctx ss d).length = 256 := by
  have e : (([1, ctx] ++ (List.range 5).map (coordOf (ownDev d)) ++ [prsStep ctx d, stitchNum d, ((getPress ctx d).getD {}).ents.length] ++
      ss.map (·.length)).flatMap (toBytes 8)).length = 152 := by
    rw [List.length_flatMap]
    simp only [length_toBytes, List.map_const', List.sum_replicate_nat, List.length_append, List.length_map, List.length_range, List.length_cons,
      List.length_nil, h]
  unfold recHeader
  simp only [List.length_append, List.length_replicate, e]

end Sys2Proof.Machine
end

