-- ==== Sys2Proof/Laws/Selv.lean ====
section
/-! SUPPORT. What a service of the Selvedge can do: it answers, and its own work decides the rest (R474). -/

namespace Sys2Proof.Machine

/-- A service that its gate lets through does its work and answers. -/
theorem service_eq {code tag : Nat} {secret role : Bool} {f : Dev → Dev × Nat × List Byte} {d : Dev} (h : selServes d)
    (ha : secret = true → approved d = true) (hr : role = true) :
    service code tag secret role f d = svcEnd code tag (f d).2.1 (f d).2.2 (f d).1 := by
  obtain ⟨h1, h2, h3⟩ := h
  have : svcGate secret role d = none := by
    unfold svcGate
    cases secret <;> simp_all
  simp [service, h1, this]

@[simp] theorem svcEnd_out (code tag st : Nat) (data : List Byte) (d : Dev) :
    (svcEnd code tag st data d).out = .doe tag st data :: d.out := by unfold svcEnd; split <;> rfl

@[simp] theorem svcEnd_sel (code tag st : Nat) (data : List Byte) (d : Dev) : (svcEnd code tag st data d).sel = d.sel := by
  unfold svcEnd; split <;> rfl

/-- The answer leaves every register but SEL_IND. -/
theorem rd_svcEnd {b : Blk} {o : Nat} (h : regKey .sel SEL_IND ≠ regKey b o) (code tag st : Nat) (data : List Byte) (d : Dev) :
    rd b o (svcEnd code tag st data d) = rd b o d := by
  unfold svcEnd
  split
  · exact rd_wr_ne h _ _
  · rfl

theorem onlyRegs.svcEnd {ks : List Nat} {d e : Dev} (h : onlyRegs ks d e) (hk : regKey .sel SEL_IND ∈ ks) (code tag st : Nat)
    (data : List Byte) : onlyRegsOut ks d (svcEnd code tag st data e) := by
  unfold Sys2Proof.Machine.svcEnd
  split
  · exact (h.wr hk _).withOut _
  · exact h.withOut _

theorem onlyRegs.authFail {ks : List Nat} {d e : Dev} (h : onlyRegs ks d e) (hf : regKey .sel R_FAULT ∈ ks) (ha : regKey .sel SEL_AUTH ∈ ks)
    (kind reason ctr : Nat) : onlyRegs ks d (authFail kind reason ctr e) := h.latchWith hf _ (h.wr ha _)

end Sys2Proof.Machine
end

