-- ==== Sys2Proof/Tests/Slice0.lean ====
section
/-! SUPPORT. Own tests: ill-formed commands are refused, the state after reset has its forms, single commands give what the spec's text
says, and the hypotheses of each statement are met by a state. -/

namespace Sys2Proof.Tests

set_option Elab.async false

open Sys2Proof Sys2Proof.Machine

/-! ### Small states -/

/-- Registers set to values, and blocks enabled with their ports open, locked for every class. -/
def put (ws : List (Nat × Nat)) (d : Dev) : Dev := ws.foldl (fun d w => wrKey w.1 w.2 d) d
def on (bs : List Blk) (d : Dev) : Dev := bs.foldl (fun d b => wr b R_CTRL 1 (wr b R_WPERM 0x800001FF d)) d
/-- A device that has been brought up to service, with some blocks enabled. -/
def served (bs : List Blk) : Dev := on bs (wr .rst RST_BOOT 7 {})
def st (d : Dev) : State := { dev := d }
/-- The device after a command. -/
def after (i : Instr) (s : State) : Dev := match exec i s with | .next t => t.dev | _ => {}
def host : Org := ⟨1, 0⟩
def fwOrg : Org := ⟨0, 0⟩
def mx : CoreRef := ⟨0, 0, 0⟩
def sc : CoreRef := ⟨0, 0, 11⟩
def vx : CoreRef := ⟨0, 0, 9⟩

/-- The access of `writable`, as a test. -/
def canReach (org : Org) (b : Blk) (o : Nat) (d : Dev) : Bool :=
  (!isHost org || (hostUp d && hostServed d)) && (org.cls != 2 || !isSafe .pci d) && !vfRefused org (addrFor org b o d) d &&
    !lcwWaits org (addrFor org b o d) d && addrFor org b o d % 4 == 0 && physOffset org (addrFor org b o d) d == some (regKey b o) &&
    presentBlk (regKey b o) d == some b && !inReset b d

def canWrite (org : Org) (b : Blk) (o v : Nat) (d : Dev) : Bool :=
  canReach org b o d && !frozen b o false d && (match regSpec b o with | some sp => !denied org b o 0 v sp d | none => false)

theorem reaches_of_canReach {org : Org} {b : Blk} {o : Nat} {d : Dev} (h : canReach org b o d = true) : reaches org b o d := by
  simp only [canReach, Bool.and_eq_true, Bool.or_eq_true, Bool.not_eq_true', beq_iff_eq, bne_iff_ne, ne_eq] at h
  obtain ⟨⟨⟨⟨⟨⟨⟨h1, h2⟩, h3⟩, h4⟩, h5⟩, h6⟩, h7⟩, h8⟩ := h
  refine ⟨fun hh => ?_, fun hc => ?_, h3, h4, h5, h6, h7, h8⟩
  · exact h1.resolve_left (by simp [hh])
  · exact h2.resolve_left (fun k => k hc)

theorem writable_of_canWrite {org : Org} {b : Blk} {o v : Nat} {d : Dev} (h : canWrite org b o v d = true) : writable org b o v d := by
  simp only [canWrite, Bool.and_eq_true, Bool.not_eq_true'] at h
  obtain ⟨⟨h1, h2⟩, h3⟩ := h
  cases hs : regSpec b o with
  | none => rw [hs] at h3; cases h3
  | some sp => rw [hs] at h3; exact ⟨reaches_of_canReach h1, sp, hs, by simpa using h3, h2⟩

/-! ### Well-formed commands -/

def badOrg : Org := ⟨9, 0⟩
def badCore : CoreRef := ⟨4, 0, 0⟩
def pkt (op : Op) : Packet := { op := op }
def longPkt (op : Op) : Packet := { op := op, len := 4096 }

/-- One ill-formed command for each operand that is checked. -/
def illFormedA : List Instr := [
  .registerWrite badOrg 0 4 0, .registerWrite host (2 ^ 28) 4 0, .registerWrite host 0 0 0, .registerWrite host 0 4 (2 ^ 32),
  .registerRead ⟨0, 1⟩ 0 4 [], .registerRead ⟨2, 0⟩ 0 4 [], .registerRead ⟨2, 65⟩ 0 4 [], .registerRead ⟨3, 2 ^ 15⟩ 0 4 [],
  .registerRead ⟨6, 128⟩ 0 4 [], .registerRead ⟨7, 64⟩ 0 4 [], .registerRead ⟨8, 2 ^ 16⟩ 0 4 [], .registerRead host (2 ^ 28) 4 [],
  .registerRead host 0 0 [], .counterLoRead badOrg 0, .counterLoRead host (2 ^ 28), .parityScan (.die 4) [], .eccWriteback (.prs 4),
  .eccWindowEnd (.nsc 0 4), .engineReset (.fmc 0 6) 0, .unitWatchdog (.lnk 0 8), .engineResetTimeout (.msh 0 48), .resetReq badOrg .glb 0 0,
  .resetReq host (.clu 0 8) 0 0, .resetReq host .glb 4 0, .resetReq host .glb 0 (2 ^ 32), .arrayCycle vx false [],
  .arrayCycle mx false [⟨136, 0, 0, false⟩], .arrayCycle mx false [⟨0, 264, 0, false⟩], .feederRead vx 0, .feederRead mx 2, .feederBankData vx 0,
  .feederBankData mx 2, .transposeTileComplete vx 0, .transposeTileComplete mx 2, .swap vx, .drainStart sc, .drainComplete badCore]

def illFormedB : List Instr := [
  .loadStart vx, .loadComplete vx, .dumpComplete vx, .productWord sc, .standaloneDrain vx, .standaloneLoad vx, .mvTranspose vx, .arrRelease badOrg mx 0,
  .arrRelease host vx 0, .arrRelease host mx (2 ^ 32), .arrDump badOrg mx 0, .arrDump host vx 0, .arrDump host mx (2 ^ 32), .sctAdvance badOrg mx 0,
  .sctAdvance host vx 0, .sctAdvance host mx (2 ^ 32), .rngSeed badOrg mx 0, .rngSeed host sc 0, .rngSeed host mx (2 ^ 32), .streamEnable badOrg mx 0 0,
  .streamEnable host mx 4 0, .streamEnable host sc 8 0, .streamEnable host mx 0 (2 ^ 32), .streamResume host mx 4 0, .streamBaseWrite host mx 4 0,
  .tailWrite mx 4, .wordFetch sc 8, .wordStart vx 4, .scoreboardFull mx 4, .syIncDone mx 4, .syIncRemoteDone mx 4, .flagWaitTimeout mx 4, .scLd mx 0,
  .scLd sc 8, .scSt vx 0, .scSt sc 8, .vxAdd sc, .vxSub sc, .vxMul sc, .vxFma sc, .vxMax sc, .vxMin sc, .vxCvt sc, .vxRsum sc, .vxRmax sc, .vxRng sc,
  .vxExp sc, .vxLog sc, .vxRsqrt sc, .vxTanh sc, .dispatch mx, .mvStream badCore, .tackPut badCore, .tackGet badCore, .slotComplete badCore 0,
  .flagNotice badCore, .freeRunningAdvance badCore, .coreReset ⟨0, 8, 0⟩ 0, .lmmScrub ⟨0, 0, 12⟩ 0 [], .firmwareChunkReceive badCore 0 [] false,
  .firmwareChunkReceive mx 128 [] false, .firmwareChunkReceive mx 0 (List.replicate 4097 0) false]

def illFormedC : List Instr := [
  .seamTimeout 64, .deviceSeamArrival 64, .refit 64, .refitHoldExpiry 64, .verdictContribute 64, .verdictBroadcast 64, .pressFence 64, .captureForward 64,
  .snapshotComplete 64, .contextReset 64 0, .contextResetTimeout 64, .parityGather 64 0, .digestCompare 64 0, .digestCompare 0 4, .pressUseSend 64 0,
  .pressUseSend 0 8192, .pressOwnerRound 64 0, .pressOwnerRound 0 8192, .migration 64 0, .migrationAbort 64 0, .seamArrivalMessage 32 0 false,
  .seamArrivalMessage 0 64 false, .tickMessage 32 ⟨⟨0, 0, 0, false, 0, 0⟩, false⟩ 0, .holdoverEntry 3, .armData badOrg 0, .armData host (2 ^ 32), .armGo badOrg 0,
  .armCancel badOrg 0, .armDiscard badOrg 0, .missLevelled badOrg 0, .mrkFit badOrg 0, .mrkUnbind badOrg 0, .mrkRefitNow badOrg 0, .flowRelease badOrg 0,
  .pressEnable badOrg 0, .snpRestore badOrg 0, .snpResume badOrg 0, .snpSnap badOrg 0, .snpRelay badOrg 0, .snpRebuild badOrg 0, .rstWdogKick badOrg 0,
  .rstCtxReset badOrg 0, .fwUpdate badOrg 0, .logHackWrite badOrg 0, .logCtlHash badOrg 0, .logCtlSeal badOrg 0, .logFreadRead badOrg,
  .armedPairDelivery 16 0, .armedPairDelivery 0 256, .nscScrub 4 0 0 [], .nscScrub 0 4 0 [], .fmcScrub 4 0 0 [], .fmcScrub 0 6 0 [],
  .eccInject badOrg .glb 0, .eccInject host (.die 4) 0, .eccInject host .glb (2 ^ 32), .mapoutNext badOrg 0 0 0 0, .mapoutNext host 4 0 0 0,
  .mapoutNext host 0 6 0 0, .mapoutNext host 0 0 4 0, .mapoutNext host 0 0 0 (2 ^ 32), .channelFail 4 0 0, .channelFail 0 6 0, .channelFail 0 0 4,
  .hostMemoryRead 65 0 0 4 [], .hostMemoryRead 0 6 0 4 [], .hostMemoryRead 0 0 0 4097 [], .hostMemoryWrite 65 0 0 [] false, .hostMemoryWrite 0 6 0 [] false,
  .hostMemoryWrite 0 0 0 (List.replicate 513 0) false, .hostConfigRequest 65 0 none, .hostConfigRequest 0 4096 none, .hostConfigRequest 0 0 (some (2 ^ 32)),
  .streamTransferBegin 4 0 0, .streamTransferComplete 0 0 2, .routerRetire badOrg 0 0 0, .routerRetire host 4 0 0, .routerRetire host 0 48 0,
  .routerRetire host 0 0 (2 ^ 32)]

def illFormedD : List Instr := [
  .putReceive ⟨longPkt .put, none⟩, .putReceive ⟨pkt .put, some 32⟩, .addReceive ⟨{ op := .add, addr := 2 ^ 64 }, none⟩,
  .casReceive ⟨{ op := .cas, srcDev := 2 ^ 15 }, none⟩, .flagAddReceive ⟨{ op := .flagAdd, dstFlow := 16384 }, none⟩,
  .putNotifyReceive ⟨{ op := .putNotify, srcFlow := 16384 }, none⟩, .getReceive ⟨{ op := .get, cls := 8 }, none⟩ [], .ackReceive (longPkt .ack),
  .dataReceive { op := .data, data := List.replicate 4097 0 }, .casOldReceive (longPkt .casOld), .nackReceive (longPkt .nack), .mcReserveReceive (longPkt .mcReserve),
  .mcGrantReceive (longPkt .mcGrant), .mcDataReceive (longPkt .mcData), .linkBlockReceive 32 {} {} true, .linkBlockReceive 0 { units := [{}] } {} true,
  .linkBlockReceive 0 { units := List.replicate 65 { flit := List.replicate 64 0 } } {} true, .packetTransmit 32, .txReservation 32, .laneLockLoss 32,
  .retrainTimeout 32, .trainingTimeout 32, .violationWindowEnd 32, .blockSend 32, .linkTrained 32 0 0 0 0, .linkTrained 0 (2 ^ 15) 0 0 0,
  .linkTrained 0 0 32 0 0, .lnkRetrain badOrg 0 0, .lnkRetrain host 32 0, .lnkRetrain host 0 (2 ^ 32), .flowNoprogress 16384, .mcReserveResend 1024,
  .mcDataInject 1024, .pressTrackerAdvance badOrg 0 0, .pressTrackerAdvance host 4 0, .pressTrackerAdvance host 0 (2 ^ 32), .dieReset 4 0, .fabricTimeout 4,
  .dieResetTimeout 4, .clusterReset 4 0 0, .clusterReset 0 8 0, .drainLimitExpiry (.die 4), .drainLimitExpiry (.cluster 0 8), .drainLimitExpiry (.core badCore),
  .resetExit (.engine (.die 4)) [], .resetExit (.context 64) [], .bootStepTimeout 0, .bootStepTimeout 6, .chipReset 4, .railWarn 50 0, .railReset 50,
  .tapePeriod ⟨0, List.replicate 33 0, 0, 0⟩, .ageSample ⟨3, 0, 0, [], 0, 0, false⟩, .authResponse 0 2 0 [] [], .authResponse 0 0 4 [] [], .logout 0 2,
  .random 0 4097 false, .verify 0 {} 0, .advanceCounter 0 {} 0 0, .setUserKey 0 4 none, .setUserKey 0 0 (some []), .installOwner 0 [], .vfFlr 0, .vfFlr 65,
  .hostTlpError .ecrc 65 [], .completionTimeout 65, .pinGlitch 7, .i3cLineStuck 3, .entdaa 128, .setDevnum (2 ^ 15), .setCap (2 ^ 16), .i3cBadCommand 1,
  .i3cBadCommand 256, .bypass 2, .bypass 256, .extest 8, .dbgreg (2 ^ 28) none, .dbgreg 0 (some (2 ^ 64)),
  .coldStart { hostLink := 2 ^ 32 }]

theorem test_ill_formed_refused_a : illFormedA.all (fun i => !i.wf) = true := by decide +kernel
theorem test_ill_formed_refused_b : illFormedB.all (fun i => !i.wf) = true := by decide +kernel
theorem test_ill_formed_refused_c : illFormedC.all (fun i => !i.wf) = true := by decide +kernel
theorem test_ill_formed_refused_d : illFormedD.all (fun i => !i.wf) = true := by decide +kernel

/-- A pattern with more cores than the device has. -/
theorem test_ill_formed_pattern (p : Pattern) (h : 384 < p.cores.length) : (Instr.fitting p).wf = false := by
  simp only [Instr.wf, decide_eq_false_iff_not]; omega

def goodObj : SignedObj := { digest := List.replicate 64 0, vkeyid := List.replicate 32 0, vsig := List.replicate 114 0 }
theorem test_well_formed : ([.registerWrite host 0 4 1, .registerRead ⟨2, 64⟩ 0 8 [], .arrayCycle mx true [⟨135, 263, 2, true⟩], .streamEnable fwOrg sc 7 1,
    .setUserKey 0 3 none, .verify 0 goodObj 3, .advanceCounter 0 goodObj 63 32, .i3cBadCommand 8, .bypass 0, .dbgreg 0 none, .stitch,
    .linkBlockReceive 31 { units := List.replicate 64 { flit := List.replicate 64 0 } } {} true] : List Instr).all Instr.wf = true := by decide +kernel

theorem test_ill_formed_object_digest : (Instr.verify 0 { goodObj with digest := [] } 0).wf = false := by decide +kernel
theorem test_ill_formed_object_counter : (Instr.verify 0 { goodObj with ctr := 256 } 0).wf = false := by decide +kernel

/-! ### The state after reset -/

theorem test_reset_canonical : canonical State.reset.dev = true ∧ Memory.wf State.reset.dev.mem = true := by decide +kernel
/-- Before the start every block is disabled and fenced, and memory reads 0. -/
theorem test_reset_block : rdBit .tck R_CTRL 0 State.reset.dev = false ∧ rdBit .tck R_CTRL 1 State.reset.dev = true := by decide +kernel
theorem test_reset_queue : State.reset.pending = [] := rfl

/-! ### The Selvedge and the change log -/

/-- A served device whose Selvedge has passed its tests, with both roles held. -/
def selDev : Dev := { served [] with sel := { tested := true, co := true, user := true, owner := some (List.replicate 32 7) } }

theorem selDev_serves : selServes selDev := ⟨by decide +kernel, by decide +kernel, by decide +kernel⟩

theorem witness_SelvedgeServices : selServes selDev ∧ approved selDev = true ∧ selDev.sel.user = true ∧ (List.replicate 32 (0 : Byte)).length = 32 :=
  ⟨selDev_serves, by decide +kernel, rfl, rfl⟩

/-- A User's key and a challenge. -/
def authDev : Dev := { selDev with sel := { selDev.sel with challenge := some [1], userKeys := [some [2], none, none, none] } }

/-- Both cases of AUTH_RESPONSE: a User key whose signature verifies, and no challenge at all. -/
theorem witness_SelvedgeSessions :
    (selServes selDev ∧ selDev.sel.lockout = false ∧ selDev.sel.challenge = none) ∧
    (selServes authDev ∧ authDev.sel.lockout = false ∧ authDev.sel.challenge = some [1] ∧ roleKey 1 0 [2] authDev = true) :=
  ⟨⟨selDev_serves, rfl, rfl⟩, ⟨by decide +kernel, by decide +kernel, by decide +kernel⟩, rfl, rfl, by decide +kernel⟩

theorem witness_SelvedgeOfficer : selServes selDev ∧ selDev.sel.co = true ∧ selDev.sel.userKeys.length = 4 ∧
    ({ selDev with sel := { selDev.sel with lockout := true } } : Dev).sel.lockout = true := ⟨selDev_serves, rfl, rfl, rfl⟩

/-- A counter record of the owner is accepted when its countersignature verifies and it raises the counter (R479). -/
theorem counterCheck_owner (d : Dev) (h : List Byte) (o : SignedObj) (h0 : d.sel.owner = some h) (hc : counterOf 63 d = 0) (hf : formOk 5 o = true)
    (hd : o.digest = Keccak.shake256 o.body 64) (ho : ownerOk h o = true) (hs : o.ctr = 255) : counterCheck o 63 32 d = 0 := by
  simp [counterCheck, h0, hc, hf, hd, ho, hs]

theorem witness_SelvedgeBurns : selServes selDev ∧ selDev.sel.co = true ∧ (st selDev).fuses.owners.length < 4 ∧ (st selDev).fuses.ok = true ∧
    ∀ obj : SignedObj, formOk 5 obj = true → obj.digest = Keccak.shake256 obj.body 64 → ownerOk (List.replicate 32 7) obj = true → obj.ctr = 255 →
      counterCheck obj 63 32 selDev = 0 :=
  ⟨selDev_serves, rfl, by decide, by decide +kernel, fun o => counterCheck_owner selDev _ o rfl (by decide +kernel)⟩

/-- Counter 0 has been advanced in this start (R479). -/
def onceDev : Dev := { selDev with sel := { selDev.sel with advanced := true } }
theorem witness_SelvedgeBurns_once : selServes onceDev ∧ onceDev.sel.co = true ∧ onceDev.sel.advanced = true := ⟨selDev_serves, rfl, rfl⟩

theorem witness_FusesOnlyBurn : ∃ t, step (st selDev) = .next t := ⟨_, rfl⟩
theorem witness_FusesStayWellFormed : (st selDev).fuses.ok = true ∧ ∃ t, step (st selDev) = .next t := ⟨by decide +kernel, _, rfl⟩

/-- A Crypto Officer's ZEROISE changes a fuse. -/
theorem witness_FusesOnlyByService : ∃ t, exec (.zeroise 0 0) (st selDev) = .next t ∧ t.fuses ≠ (st selDev).fuses :=
  ⟨_, rfl, by decide +kernel⟩

/-- STATUS answers its tag and done (R474). -/
theorem test_status : (after (.status 5) (st selDev)).out.head?.map (fun o => match o with | .doe t s bs => (t, s, bs.length) | _ => (0, 9, 0)) =
    some (5, 0, 72) := by decide +kernel

/-- Without the User role RANDOM is refused with status 1 (R474). -/
theorem test_random_needs_user : (after (.random 1 16 false) (st { selDev with sel := { selDev.sel with user := false } })).out = [.doe 1 1 []] := by
  decide +kernel

/-- A length of 1,025 is malformed (R474). -/
theorem test_random_length : (after (.random 1 1025 false) (st selDev)).out = [.doe 1 2 []] := by decide +kernel

/-- With the debug port open every service that uses the DRBG answers 3 (R472, R483). -/
theorem test_challenge_needs_approved : (after (.authChallenge 2) (st { selDev with sel := { selDev.sel with debug := true } })).out = [.doe 2 3 []] := by
  decide +kernel

/-- The eighth failure in a row locks AUTH_RESPONSE (R473). -/
theorem test_eighth_failure_locks : (after (.authResponse 3 1 0 [] []) (st { selDev with sel := { selDev.sel with fails := 7 } })).sel.lockout = true := by
  decide +kernel

/-- The change-log example of R492: the entry's bytes. -/
theorem test_log_entry_example : 
    entryBytes ⟨5000123, 12345, 1, 0, 0x0001804C, 0x1E, 0x32, 0x00012345, true, false, false, false, false, 0⟩ =
    toBytes 8 0x00004C4BBB003039 ++ toBytes 4 0x10000000 ++ toBytes 4 0x0001804C ++ toBytes 4 0x1E ++ toBytes 4 0x32 ++ toBytes 4 0x12345 ++
      toBytes 4 1 := by decide +kernel

def logEnt : LogEntry := { cls := 1, addr := 0x40 }
/-- Entries held, none drained, and the host ring on. -/
def logDev : Dev :=
  { put [(regKey .log LOG_SEQ_LO, 3), (regKey .log LOG_HSIZE, 0x10010), (regKey .log LOG_HBASE_LO, 0x10000)] (served [.log]) with
    log := { ring := [logEnt, logEnt, logEnt] } }

/-- Slot 0 of the host ring takes entry 0, and HWR names the next (R491). -/
theorem test_host_copy : (after .logHostCopy (st logDev)).out = [.hostWrite 0x10000 (entryBytes logEnt)] ∧ logHwr (after .logHostCopy (st logDev)) = 1 := by
  decide +kernel

/-- HACK may not pass HWR (R496). -/
theorem test_hack_clamped : rd64 .log LOG_HACK_LO (after (.logHackWrite host 1) (st logDev)) = 0 := by decide +kernel

/-- A seal of three entries starts at the block boundary, in slot 1 (R493). -/
theorem test_seal : (after (.logCtlSeal host 0) (st logDev)).sealing.map (fun x => (x.slot, x.first, x.reason, x.entries.length)) = some (1, 0, 2, 4) := by
  decide +kernel

def sealing1 : SealRec := { slot := 1, chain := 0, first := 0, reason := 1, stitch := 0, h := [], entries := [], r := [], sig := [] }

theorem witness_ChangeLogServices :
    writable host .log LOG_HACK_HI 0 logDev ∧ writable host .log LOG_CTL 1 logDev ∧ writable host .log LOG_CTL 2 logDev ∧
    sealedLately logDev = false ∧ logDev.sealing = none ∧ logSeq logDev + 1 < 2 ^ 64 ∧ reaches host .log LOG_FREAD logDev ∧
    copyDue logDev = true ∧ (∃ e, entryAt (logHwr logDev) logDev = some e) ∧ hostHolds false logDev = false ∧
    ({ logDev with sealing := some sealing1 } : Dev).sealing = some sealing1 :=
  ⟨writable_of_canWrite (by decide +kernel), writable_of_canWrite (by decide +kernel), writable_of_canWrite (by decide +kernel), by decide +kernel, rfl,
   by decide +kernel, reaches_of_canReach (by decide +kernel), by decide +kernel, ⟨logEnt, by decide +kernel⟩, by decide +kernel, rfl⟩

/-- The last entry of a block goes to the host with the block's hash (R491). -/
theorem witness_ChangeLogServices_link :
    let d : Dev := { put [(regKey .log LOG_SEQ_LO, 256), (regKey .log LOG_HWR_LO, 255), (regKey .log LOG_HSIZE, 0x10010)] (served [.log]) with
      log := { ring := [logEnt], hashes := [[1]], hack := 255 } }
    copyDue d = true ∧ (entryAt (logHwr d) d).isSome = true ∧ logHwr d % 256 = 255 ∧ hashAt (logHwr d / 256) d = some [1] := by decide +kernel

/-! ### Sidebands, pins and power -/

/-- The chip is held in reset by the tray. -/
def heldDev : Dev := { ({} : Dev) with mod_ := { trayHeld := true } }

theorem witness_I3cTransfers : (st (served [])).dev.mod_.rails = true ∧ chipHeld (served []) = false ∧ heldDev.mod_.rails = true ∧
    chipHeld heldDev = true ∧ ¬ (1 ≤ 8 ∧ 8 ≤ 7) := by decide +kernel

/-- In reset a read answers zeros, but GET_ID does not (R513). -/
theorem test_i3c_in_reset : (after .getStatus (st heldDev)).out = [.i3c (List.replicate 8 0)] ∧
    (after .getId { dev := heldDev, fuses := { serial := 0x0102030405060708 } }).out = [.i3c ([8, 7, 6, 5, 4, 3, 2, 1] ++ toBytes 8 0xC800)] := by
  decide +kernel

/-- A PWR block whose WPERM allows class 6 or does not, with a started device. -/
def capDev (allow : Nat) : Dev := put [(regKey .pwr PWR_RATING, 3600 + 4200 * 65536), (regKey .pwr R_WPERM, allow), (regKey .pwr PWR_CAP_TRAY, 3600), (regKey .pwr PWR_CAP_HOST, 3600)]
  { served [] with mod_ := { start := 0 } }

theorem witness_TrayCap :
    (capDev 0x80000063).mod_.rails = true ∧ chipHeld (capDev 0x80000063) = false ∧ (capDev 0x80000063).mod_.start = 0 ∧
    inReset .pwr (capDev 0x80000063) = false ∧ allows .pwr 6 (capDev 0x80000063) = true ∧ allows .pwr 6 (capDev 0x80000023) = false := by decide +kernel

/-- A cap below 1,200 W stores 1,200, one above the rating the rating (R452). -/
theorem test_set_cap_clamps : rd .pwr PWR_CAP_TRAY (after (.setCap 500) (st (capDev 0x80000063))) = 1200 ∧
    rd .pwr PWR_CAP_TRAY (after (.setCap 5000) (st (capDev 0x80000063))) = 3600 := by decide +kernel

theorem witness_TestPort : (served []).mod_.rails = true ∧ 0xFF < 256 ∧ 0xFF ∉ [1, 2, 3, 0x10] ∧ (served []).mod_.trayHeld = false ∧
    (served []).mod_.supplyHeld = false ∧ heldDev.mod_.trayHeld = true ∧ (served []).sel.debug = false ∧
    ({ served [] with sel := { debug := true } } : Dev).sel.debug = true ∧ lcwWaits ⟨4, 0⟩ 0x48 (served []) = false := by decide +kernel

/-- The IDCODEs of R518. -/
theorem test_idcode : (after .idcode (st {})).out = [.tdo 32 0x19A09A7B] ∧ (after .idcode { dev := {}, fuses := { grade := 1 } }).out = [.tdo 32 0x19A0AA7B] := by
  decide +kernel

/-- With the debug port locked DBGREG reads 0 and writes without an entry of the log (R518). -/
theorem test_dbgreg_locked : (after (.dbgreg 0 none) (st (served []))).out = [.tdo 64 0] ∧ (after (.dbgreg 0x10040 (some 1)) (st (served []))).log.ring = [] := by
  decide +kernel

/-- TICK_SYNC_IN watched, at the root. -/
def rootDev : Dev := put [(regKey .tck TCK_CFG, 3)] (served [.tck])
def lostDev : Dev := { served [] with mod_ := { start := 0, refLost := true } }

theorem witness_PinEvents : rootDev.mod_.rails = true ∧ chipHeld rootDev = false ∧ rdBit .tck TCK_CFG 1 rootDev = true ∧ rdBit .tck TCK_CFG 0 rootDev = true ∧
    faultValid .pci rootDev = false ∧ faultValid .pci (after (.i3cLineStuck 4) (st rootDev)) = true ∧ rootDev.mod_.refLost = false ∧ hostUp rootDev = true ∧
    lostDev.mod_.rails = true ∧ chipHeld lostDev = false ∧ lostDev.mod_.refLost = true ∧ lostDev.mod_.start = 0 ∧ hostServed lostDev = true := by
  decide +kernel

/-- Pin 5 stuck is recorded while pin 4's fault is not latched; then pin 4 leaves the record (R109). -/
theorem test_pin_stuck_recorded : rd .pci PCI_STUCK (after (.i3cLineStuck 4) (st (after (.i3cLineStuck 5) (st rootDev)))) = 5 := by decide +kernel

def offDev : Dev := { mod_ := { rails := false, start := 0, pins := 0x7A } }

theorem witness_PowerAndStart : offDev.mod_.rails = false ∧ offDev.mod_.tripped = false ∧ (served []).mod_.rails = true ∧ 115 ≤ 115 ∧
    ({} : Dev).mod_.start ≠ 0 ∧ chipHeld {} = false ∧ ({} : BootFindings).mgmt = [] := by decide +kernel

/-- With no management image that passes, the start fails in step 1 (R424). -/
theorem test_cold_start_without_image : rdF .rst RST_BOOT 0 4 (after (.coldStart {}) (st {})) = 8 ∧ rdF .rst RST_BOOT 16 4 (after (.coldStart {}) (st {})) = 1 := by
  decide +kernel

theorem test_trip_powers_off : (after (.thermalSample 115) (st (served []))).mod_.rails = false ∧ (after (.thermalSample 114) (st (served []))).mod_.rails = true := by
  decide +kernel

theorem witness_ChipResets : (served []).mod_.rails = true ∧ ({ served [] with mod_ := { start := 0 } } : Dev).mod_.start = 0 ∧
    chipHeld { served [] with mod_ := { start := 0 } } = false := by decide +kernel

theorem witness_Heartbeat : chipHeld (capDev 0) = false ∧ (capDev 0).mod_.start = 0 ∧ rdBit .pci PCI_I3C 7 (capDev 0) = false ∧
    rdBit .pci PCI_I3C 7 (put [(regKey .pci PCI_I3C, 128)] (capDev 0)) = true := by decide +kernel

/-- The heartbeat of a device that is READY (R514). -/
theorem test_heartbeat : (after .heartbeat (st (put [(regKey .pci PCI_I3C, 128)] (capDev 0)))).out = [.ibi [0xB7, 1, 0, 7, 0]] := by decide +kernel

theorem witness_PowerAndTemperature : chipHeld (capDev 0) = false ∧ (capDev 0).tape.throttle = false ∧
    ({ capDev 0 with tape := { throttle := true } } : Dev).tape.throttle = true ∧ (capDev 0).tape.sag = false ∧
    sealedLately logDev = false ∧ logDev.sealing = none ∧ logSeq logDev ≠ 0 ∧ (49 : Nat) < 50 ∧ ([84] : List Nat).length ≤ 32 ∧
    floorAsked { capDev 0 with tape := { throttle := true } } = true ∧ floorAsked (capDev 0) = false ∧ (114 : Nat) < 115 ∧
    rdF .pwr PWR_THERM 0 8 (capDev 0) ≤ 95 ∧ (capDev 0).tape.warned = false := by decide +kernel

/-- The Tape's example after R459: with an empty bucket each cluster freezes 132 of 2,688 parts of its cycles. -/
def tapeExample : Dev :=
  after (.tapePeriod ⟨1044, List.replicate 32 84, 7200, 3732⟩) (st { capDev 0 with tape := { bucket := 0 } })
theorem test_tape_example : frzAt 31 tapeExample = 1900 * 132 * 1000000 / 2688 ∧ rdF .pwr PWR_BUDGET 0 16 tapeExample = 3600 := by decide +kernel

/-- While the bucket holds energy the excursion runs unthrottled at 132 W above the rating (R453). -/
theorem test_tape_excursion : let d := after (.tapePeriod ⟨1044, List.replicate 32 84, 7200, 3732⟩) (st (capDev 0));
    d.tape.bucket = 6000000 - 132 ∧ frzAt 0 d = 0 := by decide +kernel

def ageDev : Dev := on [.age] (served [])
def chanSample (m : Nat) : WearReading := ⟨2, 95, m, [], 0, 0, false⟩
theorem witness_WearSamples : rdBit .age AGE_CFG 16 ageDev = true ∧ idle .age ageDev = false ∧ inReset .age ageDev = false ∧ (chanSample 15).kind = 2 ∧
    (chanSample 15).unit < 96 ∧ bits (rd .age AGE_LIMITS ageDev) 16 8 ≤ (chanSample 15).margin ∧ bits (rd .age AGE_LIMITS ageDev) 24 8 ≤ (chanSample 15).margin ∧
    (chanSample 6).margin < bits (rd .age AGE_LIMITS ageDev) 16 8 ∧ bits (rd .age AGE_LIMITS ageDev) 24 8 ≤ (chanSample 6).margin ∧
    faultValid .age ageDev = false ∧ ageDev.flash.ages.length ≤ ageRing ∧
    ({ ageDev with age := { ageDev.age with last := [] ++ [(3, [40], 50)] } } : Dev).age.last = [] ++ [(3, [40], 50)] := by decide +kernel

/-- A path margin of 2.0 % is 2.0 % short: one stretch step now, four guard steps pending (R461, R462). -/
def wearDev : Dev := put [(regKey .tck TCK_CYCLES, 30400), (regKey .tck TCK_BUDGET, 29488), (regKey .glb GLB_CLK_COMMIT, 1900)] ageDev
theorem test_wear_path : let d := after (.ageSample ⟨0, 3, 20, [20, 30, 40, 50], 600, 60, false⟩) (st wearDev)
    ageStretch 3 d = 1 ∧ agePendGuard 3 d = 4 ∧ agePendBin 3 d = false := by decide +kernel

/-! ### The array -/

/-- A served matrix core, with what its array holds. -/
def arrDev (a : ArrSt) : Dev :=
  modCore mx (fun x => { x with arr := a }) (served [.arr mx, .fed mx, .lmm mx, .vec mx, .sct mx, .seq mx])
def prod1 : Prod := ⟨0, 0, 1, 1, 1, true, true, false, 0, false, false, 0, none, 0, none, 0, {}⟩
def exec1 : ProdExec := { job := 0, stream := 0, p := prod1 }
def slice1 : Slice := ⟨0, 0, []⟩
def one : FVal := fmtBF16.decode 0x3F80
/-- A start slice about to reach group 0: 1.0 on row 0 and 1.5 on column 1. -/
def pipe1 : PipeEnt := ⟨3, 0, true, false, false, false, [(0, [(0, one)])], [(1, [(0, fmtBF16.decode 0x3FC0)])]⟩

theorem witness_ArrayEdge :
    (coreOk mx = true ∧ isMatrix mx = true) ∧
    (safeCause mx ({ arrDev { pipe := [pipe1] } with safe := [blkBase (.arr mx)] }) = true) ∧
    (safeCause mx (arrDev {}) = false ∧ arrIdle mx (arrDev {}) = false) ∧
    ((getFeed exec1 0).fault = false ∧ (getFeed exec1 0).held = false ∧ (getFeed exec1 0).buf.length < 32 ∧
      (getFeed exec1 0).pass < passCount exec1.p ∧ exec1.da.isSome = exec1.db.isSome ∧ idle (.lmm mx) (arrDev {}) = false ∧ idle (.fed mx) (arrDev {}) = false ∧ (arrDev {}).flaws = []) ∧
    ((getArr mx (arrDev { prod := some (putFeed 0 { fly := [slice1] } exec1) })).prod = some (putFeed 0 { fly := [slice1] } exec1)) ∧
    (exec1.swapped = false ∧ exec1.cont = false ∧ shadowReady { prod := some exec1 } exec1 = true ∧ outSkipped exec1 0 = false ∧ exec1.pass < passCount exec1.p ∧
      passRuns exec1 exec1.pass = true ∧ midSlice { prod := some exec1 } = false) := by decide +kernel

/-- Group 0 holds the first 17 rows (R121), and a start slice gives cell (0, 1) its product (R77). -/
theorem test_group_and_cell : groupRows [] 0 = List.range 17 ∧ getCell (cellSlice pipe1 0 1 { tag := 1, cells := [(1, { s := 0x40000000 })] }) 0 1 =
    { s := 0x3FC00000 } := by decide +kernel

/-- The worked product of R95: three slices, and the compensation that the last leaves. -/
theorem test_accumulate_example : accumulate 0 0 (.fin false 1 0) = (0x3F800000, 0) ∧ accumulate 0x3F800000 0 (.fin false 15 (-28)) = (0x3F800000, 0x3C00) ∧
    accumulate 0x3F800000 0x3C00 (.fin false 15 (-28)) = (0x3F800001, 0xF800) := by decide +kernel

/-- R78: an INT cell wraps. -/
theorem test_int_wraps : accumInt 0x7FFFFFFF 1 = (0x80000000, true) := by decide +kernel

/-- R92: 464 rounds to 448 and 465 overflows in FP8 E4M3; 61,440 overflows in E5M2; 7 becomes 6 in FP4. -/
theorem test_overflow_examples : convElem .e4m3 false false .rne (.fin false 464 0) = 0x7E ∧ convElem .e4m3 false false .rne (.fin true 465 0) = 0xFF ∧
    convElem .e5m2 true false .rne (.fin false 61440 0) = 0x7C ∧ convElem .e5m2 true true .rne (.fin false 61440 0) = 0x7B ∧
    convElem .fp4 true true .rne (.fin true 7 0) = 0xF := by decide +kernel

/-- R138: a block that holds 300.0 and 0.01. -/
theorem test_mx_examples : mxScale (emaxOf 0) [f32 0x43960000, f32 0x3C23D70A] = 0x7F ∧ mxElem fmtE4M3 .rne 0x7F (f32 0x43960000) = 0x79 ∧
    mxElem fmtE4M3 .rne 0x7F (f32 0x3C23D70A) = 5 ∧ mxScale (emaxOf 2) [f32 0x43960000, f32 0x3C23D70A] = 0x85 ∧
    mxElem fmtE2M1 .rne 0x85 (f32 0x43960000) = 6 := by decide +kernel

/-- The descriptor of the convolution of R117. -/
def convDesc : Desc :=
  { base := 0, fmt := 0, sparse := false, occEn := false, metaBase := 0, metaPitch := 0, scaleBase := 0, scalePitch := 0, occBase := 0, occPitch := 0,
    levels := [⟨64, true, 0, 2⟩, ⟨3, true, 2, 0⟩, ⟨3, true, 4, 0⟩, ⟨24, false, 1, 0⟩, ⟨20, false, 3, 0⟩, ⟨1, false, 0, 0⟩],
    windows := [⟨24, 1, 1, 1, 128⟩, ⟨20, 1, 1, 1, 3072⟩] }
theorem test_convolution : descOk convDesc = true ∧ elemAddr convDesc 0 0 = none ∧ elemAddr convDesc 25 200 = some 0xC10 := by decide +kernel

/-- R99: with row 2 excluded logical row 2 is physical row 3. -/
theorem test_repair_map : logicalLine [2] 3 = some 2 ∧ logicalLine [2] 2 = none ∧ skewGroup 68 = 4 ∧ skewGroup 131 = 7 := by decide +kernel

def drain1 : DrainJob := { set := 1, dr := { addr := 64 }, dest := 64, toAcc := false, int := false, rows := 128, cols := 128, quarter := false,
                           age := 11, job := 0, stream := 0 }
def stickySet : AccSet := { cells := [(129, { arith := true })], tag := 1 }
def jobOf (w : Work) : Job := { id := 0, word := 0, stream := 0, slot := 3, work := w, regions := [] }

theorem witness_ArrayTransfers :
    (arrIdle mx (arrDev {}) = false ∧ (getArr mx (arrDev { drains := [drain1] })).drains = [drain1] ∧ drain1.out = none ∧
      drainHeld mx drain1 (arrDev { drains := [drain1] }) = false ∧ idle (.lmm mx) (arrDev { drains := [drain1] }) = false ∧
      drain1.stream < nStreams mx ∧ failing {} (getSet {} 1) = []) ∧
    (failing { set1 := stickySet } (getSet { set1 := stickySet } 1) ≠ [] ∧ getJob 0 (getCore mx (arrDev { set1 := stickySet, drains := [drain1] })) = none) ∧
    ((getArr mx (arrDev { drains := [{ drain1 with out := some [(7, false)] }] })).drains = [{ drain1 with out := some [(7, false)] }] ∧
      drain1.dest + 1 ≤ 2 ^ 23 ∧ (∀ b ∈ [Blk.lmm mx, flagBlk 0], rdBit b ECC_INJ 3 (arrDev {}) = false) ∧ (arrDev {}).flaws = []) ∧
    ((getArr mx (arrDev { load := some ⟨0, 0, false, false, false, 0, 0, false⟩ })).load = some ⟨0, 0, false, false, false, 0, 0, false⟩ ∧
      (getArr mx (arrDev { load := some ⟨0, 0, true, false, false, 0, 0, true⟩ })).load = some ⟨0, 0, true, false, false, 0, 0, true⟩) := by
  decide +kernel

/-- A dump of set 0 to 0x18000 of the near store, whose four units serve. -/
def dumpDev : Dev :=
  on [.nsc 0 0, .nsc 0 1, .nsc 0 2, .nsc 0 3, posBlk (corePos mx)]
    (put [(regKey .glb GLB_DEVNUM, 2 ^ 31)] (arrDev { dump := { todo := [0], busy := true, addr := 0x18000 } }))

theorem dump_spot (i : Nat) (h : i < 98304) : gDev (dumpAddr 0x18000 0 + i) = ownDev dumpDev ∧
    spotOf (coreCtx mx dumpDev) (dumpAddr 0x18000 0 + i) dumpDev = .mem (keyNear 0x18000 + i) ∧ keyFailed (keyNear 0x18000 + i) dumpDev = false := by
  have ho : ownDev dumpDev = 0 := by decide +kernel
  have ha : dumpAddr 0x18000 0 + i = 0x18000 + i := by unfold dumpAddr; omega
  have hs : gSpace (0x18000 + i) = 0 := by simp only [gSpace, bits]; omega
  have hf : gOff (0x18000 + i) = 0x18000 + i := by simp only [gOff, bits]; omega
  refine ⟨by rw [ho, ha]; simp only [gDev, bits]; omega, by simp only [ha, spotOf, hs, hf, keyNear], ?_⟩
  have hk : keySpace (keyNear 0x18000 + i) = 0 := by unfold keySpace; exact if_pos (by simp only [keyNear]; omega)
  simp [keyFailed, hk]

theorem dump_open (i m : Nat) (h : i + m ≤ 98304) : windowHit (keyNear 0x18000 + i) m dumpDev = false ∧
    portAnswer (corePos mx) (.mem (keyNear 0x18000 + i)) m dumpDev = none := by
  refine ⟨by rw [windowHit, show dumpDev.press = [] from rfl]; exact Bool.and_false _, ?_⟩
  have hq : ∀ q, q < 4 → refusedAt (corePos mx) (.nsc 0 q) false dumpDev = none := by decide +kernel
  unfold portAnswer
  rw [List.findSome?_eq_none_iff]
  intro b hb
  unfold spotBlks at hb
  rw [List.mem_eraseDups, List.mem_map] at hb
  obtain ⟨j, hj, rfl⟩ := hb
  rw [List.mem_range] at hj
  have hsp : keySpace (keyNear 0x18000 + i) = 0 := by unfold keySpace; exact if_pos (by simp only [keyNear]; omega)
  rw [hsp] at hj ⊢
  have hlt : max (keyNear 0x18000 + i) ((( keyNear 0x18000 + i) / 256 + j) * 256) < 0x180000000 := by simp only [keyNear] at hj ⊢; simp at hj; omega
  simp only [Nat.zero_ne_one, if_false]
  have hkb : keyBlk (max (keyNear 0x18000 + i) (((keyNear 0x18000 + i) / 256 + j) * 256)) dumpDev =
      .nsc 0 (bits (max (keyNear 0x18000 + i) (((keyNear 0x18000 + i) / 256 + j) * 256)) 8 2) := by
    have hz : keySpace (max (keyNear 0x18000 + i) (((keyNear 0x18000 + i) / 256 + j) * 256)) = 0 := by unfold keySpace; exact if_pos (by omega)
    unfold keyBlk; rw [hz]; simp only [Nat.div_eq_of_lt hlt]
  rw [hkb]
  exact hq _ (by simp only [bits]; omega)

theorem witness_ArrayTransfers_dump :
    arrIdle mx dumpDev = false ∧ (getArr mx dumpDev).dump.todo = [0] ∧ (getArr mx dumpDev).dump.addr = 0x18000 ∧ (getArr mx dumpDev).dump.later = [] ∧
    gDev (dumpAddr 0x18000 0) = ownDev dumpDev ∧ dumpDev.flaws = [] ∧ 
    (∀ i, i < 98304 → gDev (dumpAddr 0x18000 0 + i) = ownDev dumpDev ∧
      spotOf (coreCtx mx dumpDev) (dumpAddr 0x18000 0 + i) dumpDev = .mem (keyNear 0x18000 + i) ∧ keyFailed (keyNear 0x18000 + i) dumpDev = false) ∧
    (∀ i m, i + m ≤ 98304 → windowHit (keyNear 0x18000 + i) m dumpDev = false ∧
      portAnswer (corePos mx) (.mem (keyNear 0x18000 + i)) m dumpDev = none) ∧
    drWaits mx drain1 (arrDev { drains := [drain1] }) = false :=
  ⟨by decide +kernel, rfl, rfl, rfl, by decide +kernel, rfl, dump_spot, dump_open, by decide +kernel⟩

/-- A mismatch names the physical cell and quarantines the set (R97, R109). -/
theorem test_residue_location : let d := after (.drainStart mx) (st (arrDev { set1 := stickySet, drains := [drain1], exRows := [0] }));
    rd (.arr mx) ARR_RES_LOC d = 2 + 1 * 256 + 65536 + 2 ^ 17 + 2 ^ 24 ∧ (getArr mx d).set1.quar = true := by decide +kernel

/-- A drain's bytes land, and CLEAR empties the set (R89, R128). -/
theorem test_drain_lands : let d := after (.drainComplete mx) (st (arrDev { set1 := { tag := 1 }, drains := [{ drain1 with dr := { clear := true }, out := some [(7, false), (9, true)] }] }));
    memRd d (keyLoc mx 64) = 7 ∧ poisonOf (keyLoc mx 65) d = true ∧ (getArr mx d).set1.tag = 0 := by decide +kernel

def slotDev (w : Work) (a : ArrSt) : Dev := modCore mx (fun x => { x with jobs := [jobOf w] }) (arrDev a)

theorem witness_ArraySlots :
    (arrayBusy mx (slotDev (.product prod1) {}) = false ∧ headJob 0 (getCore mx (slotDev (.product prod1) {})) = some (jobOf (.product prod1)) ∧
      depsClear (jobOf (.product prod1)) (getCore mx (slotDev (.product prod1) {})) = true ∧ readsConflict (jobOf (.product prod1)) (storeRegion prod1) = false ∧
      continues (getArr mx (slotDev (.product prod1) {})) prod1 = false ∧ prod1.setA < 8 ∧ prod1.setB < 8) ∧
    (headJob 0 (getCore mx (slotDev (.drain {}) {})) = some (jobOf (.drain {})) ∧ drainRefused 0 0 = false ∧ drainRefused 2 0 = true ∧
      shadowTag (getArr mx (slotDev (.drain {}) { set1 := { tag := 2 } })) = 2 ∧ (jobOf (.drain {})).stream < nStreams mx) ∧
    (headJob 0 (getCore mx (slotDev (.load {}) {})) = some (jobOf (.load {}))) := by decide +kernel

/-- R131: the accumulator store that the previous slot left continues in the active set. -/
theorem test_continues : (getArr mx (after (.productWord mx) (st (slotDev (.product { prod1 with start := false, acc := 256 }) { contStore := some 256 })))).prod.map
    (·.cont) = some true := by decide +kernel

/-- R87: an F32 drain of an INT set is refused with cause 7 (R185). -/
theorem test_drain_tag : rdF (.seq mx) SEQ_ILL 0 8 (after (.standaloneDrain mx) (st (slotDev (.drain {}) { set1 := { tag := 2 } }))) = 7 := by decide +kernel

/-- Both sets quarantined, and a dump address on a 256-byte boundary or off it. -/
def quarDev (a : Nat) : Dev := put [(regKey (.arr mx) ARR_QDUMP_LO, a), (regKey .glb GLB_DEVNUM, 2 ^ 31)] (arrDev { set0 := { quar := true }, set1 := { quar := true } })
def vxDev : Dev := served [.seq vx]

theorem witness_ArrayRequests :
    writable fwOrg (.arr mx) ARR_QUAR 0x100 (quarDev 0) ∧ writable fwOrg (.arr mx) ARR_QUAR 0x400 (quarDev 0) ∧
    ([0].all (fun n => dumpOk mx (dumpAddr 0 n) (quarDev 0)) = true ∧ [0].all (fun n => dumpOk mx (dumpAddr 128 n) (quarDev 128)) = false ∧
      (getArr mx (quarDev 0)).dump.busy = false ∧ (getArr mx dumpDev).dump.busy = true) ∧
    writable fwOrg (.sct mx) SCT_ADVANCE 0x80000003 (quarDev 0) ∧ writable fwOrg (.vec mx) VEC_RNG_SEED_HI 1 (quarDev 0) ∧
    (isVector vx = true ∧ writable fwOrg (.seq vx) VCR_RNG_SEED_HI 1 vxDev) ∧ freeRunning mx (put [(regKey (.vec mx) VEC_RNG_CTL, 1)] (arrDev {})) = true :=
  ⟨writable_of_canWrite (by decide +kernel), writable_of_canWrite (by decide +kernel), by decide +kernel, writable_of_canWrite (by decide +kernel),
    writable_of_canWrite (by decide +kernel), ⟨rfl, writable_of_canWrite (by decide +kernel)⟩, by decide +kernel⟩

/-- R110: a release empties set 0 and leaves set 1 quarantined. -/
theorem test_release : let a := getArr mx (after (.arrRelease fwOrg mx 0x100) (st (quarDev 0))); a.set0.quar = false ∧ a.set1.quar = true := by decide +kernel

/-- R110: an address off the boundary is an ADDRESS_FAULT. -/
theorem test_dump_misaligned : rdF (.arr mx) R_FAULT 0 16 (after (.arrDump fwOrg mx 0x800) (st (quarDev 128))) = cAddressFault := by decide +kernel

/-- R136: a maximum of 300 gives E = 8 - 8 + MARGIN, here 1. -/
theorem test_tracker_advance : bits (rdKey (after (.sctAdvance fwOrg mx 3) (st (put [(sctCfg mx 3, 0x10), (sctCur mx 3, 0x43960000)] (arrDev {})))) (sctCfg mx 3)) 8 12 =
    0x101 := by decide +kernel

/-- R142 with key 0 and counter 1, worked by hand from the rule. -/
theorem test_generator : rngOut 0 1 = 0xE220A8397B1DCDAF := by decide +kernel

/-! ### Lanes and the sequencer -/

/-- A served core of each type with slots started on it. -/
def coreDev (c : CoreRef) (js : List Job) : Dev :=
  modCore c (fun x => { x with jobs := js }) (put [(regKey .glb GLB_DEVNUM, 2 ^ 31)]
    (served ([.seq c, .lmm c, flagBlk 0, .cor c, posBlk (corePos c)] ++ if isMatrix c then [.vec c, .txb c, .arr c, .fed c, .sct c] else [])))
def vxJob (op rnd rows : Nat) : Job := jobOf (.vx op 0 rnd 0x8000 0 0x4000 rows)

theorem vxReady_of (c : CoreRef) (op rnd rows : Nat) (d : Dev) (h : (coreOk c && decide (headJob 1 (getCore c d) = some (vxJob op rnd rows)) &&
    depsClear (vxJob op rnd rows) (getCore c d) && !lanesHeld c d && !idle (.lmm c) d &&
    !(getCore c d).jobs.any (fun k => unitOf k.work == 1 && decide (k.phase = .running)) && rangesIn c (vxRanges c op 0 0x8000 0 0x4000 rows d) &&
    decide (rangesPoison c (vxRanges c op 0 0x8000 0 0x4000 rows d) d = none)) = true) : vxReady c (vxJob op rnd rows) d := by
  simp only [Bool.and_eq_true, decide_eq_true_eq, Bool.not_eq_true'] at h
  obtain ⟨⟨⟨⟨⟨⟨⟨h1, h2⟩, h3⟩, h4⟩, h5⟩, h6⟩, h7⟩, h8⟩ := h
  refine ⟨h1, h2, h3, h4, h5, h6, fun o f r a b e n hw => ?_⟩
  simp only [vxJob, jobOf, Work.vx.injEq] at hw
  obtain ⟨rfl, rfl, rfl, rfl, rfl, rfl, rfl⟩ := hw
  exact ⟨h7, h8⟩

theorem witness_VectorLanes : vxReady mx (vxJob 1 0 1) (coreDev mx [vxJob 1 0 1]) ∧ vxReady vx (vxJob 0x13 0 1) (coreDev vx [vxJob 0x13 0 1]) ∧
    (coreDev mx []).flaws = [] ∧ rdBit (.lmm mx) ECC_INJ 3 (coreDev mx []) = false ∧ rdBit (.lmm vx) ECC_INJ 3 (coreDev vx []) = false :=
  ⟨vxReady_of _ _ _ _ _ (by decide +kernel), vxReady_of _ _ _ _ _ (by decide +kernel), by decide +kernel, by decide +kernel, by decide +kernel⟩

/-- FMA rounds once: (1 + 2^-23)^2 - (1 + 2^-22) is 2^-46; MUL alone rounds it away (R141). -/
theorem test_fma_rounds_once : vxLane 4 0x3F800001 0x3F800001 0xBF800002 = 0x28800000 ∧ vxLane 3 0x3F800001 0x3F800001 0 = 0x3F800002 := by
  decide +kernel

/-- MAX and MIN order the zeros and make NaN canonical (R169). -/
theorem test_max_min : vxLane 5 0x80000000 0 0 = 0 ∧ vxLane 6 0 0x80000000 0 = 0x80000000 ∧ vxLane 5 0x7F800001 0 0 = 0x7FC00000 := by decide +kernel

theorem test_add_sub : vxLane 1 0x3F800000 0x40000000 0 = 0x40400000 ∧ vxLane 2 0x3F800000 0x3F800000 0 = 0 := by decide +kernel

/-- The tree of RSUM adds neighbours first: (2^24 + 1) + (1 + 1) is 2^24 + 2. -/
theorem test_rsum_tree : treeFold fAdd 10 [0x4B800000, 0x3F800000, 0x3F800000, 0x3F800000] = 0x4B800001 ∧ treeFold fMax 10 [0x3F800000, 0x40000000] = 0x40000000 := by
  decide +kernel

/-- One token, two experts, capacity 1, the first choice 1 (R345). -/
def dispDev (k : Nat) : Dev :=
  memPut (keyLoc vx 0x4000) (toBytes 4 1 ++ toBytes 2 2 ++ toBytes 1 k ++ toBytes 1 1 ++ toBytes 4 1)
    (memPut (keyLoc vx 0) (toBytes 2 1) (coreDev vx [vxJob 0x20 0 1]))

theorem witness_VectorRows :
    (vxReady mx (vxJob 8 0 1) (coreDev mx [vxJob 8 0 1]) ∧ vxReady mx (vxJob 9 0 1) (coreDev mx [vxJob 9 0 1]) ∧
      vxReady mx (vxJob 7 1 1) (coreDev mx [vxJob 7 1 1]) ∧ vxReady mx (vxJob 0xA 0 1) (coreDev mx [vxJob 0xA 0 1])) ∧
    (vxReady vx (vxJob 0x20 0 1) (dispDev 1) ∧ (dispParam vx 0x4000 1 (dispDev 1)).ok = true) ∧
    (vxReady vx (vxJob 0x20 0 1) (dispDev 2) ∧ (dispParam vx 0x4000 1 (dispDev 2)).ok = false ∧ (vxJob 0x20 0 1).stream < nStreams vx) :=
  ⟨⟨vxReady_of _ _ _ _ _ (by decide +kernel), vxReady_of _ _ _ _ _ (by decide +kernel), vxReady_of _ _ _ _ _ (by decide +kernel),
    vxReady_of _ _ _ _ _ (by decide +kernel)⟩, ⟨vxReady_of _ _ _ _ _ (by decide +kernel), by decide +kernel⟩,
    ⟨vxReady_of _ _ _ _ _ (by decide +kernel), by decide +kernel, by decide +kernel⟩⟩

/-- A destination that runs beyond local memory, of an addition and of DISPATCH. -/
def farJob (op dst : Nat) : Job := jobOf (.vx op 0 0 dst 0 0x4000 1)
def farDisp : Dev := modCore vx (fun x => { x with jobs := [farJob 0x20 (lmSize vx - 8)] }) (dispDev 1)

theorem witness_VectorRows_range :
    (headJob 1 (getCore mx (coreDev mx [farJob 1 (2 ^ 23 - 16)])) = some (farJob 1 (2 ^ 23 - 16)) ∧
      getJob 0 (getCore mx (coreDev mx [farJob 1 (2 ^ 23 - 16)])) = some (farJob 1 (2 ^ 23 - 16)) ∧
      depsClear (farJob 1 (2 ^ 23 - 16)) (getCore mx (coreDev mx [farJob 1 (2 ^ 23 - 16)])) = true ∧ lanesHeld mx (coreDev mx [farJob 1 (2 ^ 23 - 16)]) = false ∧
      paramBad mx 1 0x4000 (coreDev mx [farJob 1 (2 ^ 23 - 16)]) = false ∧
      rangesIn mx (vxRanges mx 1 0 (2 ^ 23 - 16) 0 0x4000 1 (coreDev mx [farJob 1 (2 ^ 23 - 16)])) = false ∧ faultValid (.seq mx) (coreDev mx []) = false) ∧
    (headJob 1 (getCore vx farDisp) = some (farJob 0x20 (lmSize vx - 8)) ∧ depsClear (farJob 0x20 (lmSize vx - 8)) (getCore vx farDisp) = true ∧
      lanesHeld vx farDisp = false ∧ idle (.lmm vx) farDisp = false ∧ paramBad vx 0x20 0x4000 farDisp = false ∧
      rangesIn vx (vxRanges vx 0x20 0 (lmSize vx - 8) 0 0x4000 1 farDisp) = false) := by decide +kernel

/-- The token is placed in expert 1's first slot, and its return entry says so (R346). -/
theorem test_dispatch : let d := after (.dispatch vx) (st (dispDev 1));
    lmNat vx 0x8008 8 d = 1 ∧ lmNat vx 0x8014 4 d = 0 ∧ lmNat vx 0x8018 4 d = 1 := by decide +kernel

/-- The decoded word of chapter 5. -/
def wordBytes : List Byte := [0x4F, 0x49, 0x17, 0x0A, 0x00, 0xFF, 0xF0, 0x1F, 0xFF, 0x07, 0x00, 0x03, 0x08, 0x00, 0x00, 0x01, 0x00, 0x00, 0x00, 0x00,
  0x09, 0x00, 0x00, 0x02, 0x00, 0x00, 0x00, 0x00, 0x4C, 0x01, 0x00, 0x00, 0x00, 0x16, 0x00, 0x01, 0x21, 0x00, 0x24, 0x00]
theorem test_decoded_word : let w := parseWord wordBytes;
    wLength w.hdr = 40 ∧ wContent w.hdr = 40 ∧ w.tag = some 0x0A17 ∧
    prodOf 0x030007FF1FF0FF00 0x01000008 0x02000009 0x010016000000014C (mxM 0x030007FF1FF0FF00) =
      ⟨0, 0, 256, 512, 2048, true, true, false, 0, false, false, 0, some 0x100000, 1, some 0x200000, 0,
        { form := 3, rnd := 1, clear := true, addr := 0x400000, flag := 5, flagEn := true }⟩ ∧
    w.slots = [(0, 0x030007FF1FF0FF00), (1, 0x01000008), (2, 0x02000009), (3, 0x010016000000014C), (6, 0x00240021)] ∧
    passCount (prodOf 0x030007FF1FF0FF00 0x01000008 0x02000009 0x010016000000014C 256) = 8 := by decide +kernel

/-- A word of one SC or SY slot. -/
def oneSlot (i v : Nat) : List Byte := toBytes 2 (2 ^ i + 2 ^ 11) ++ toBytes 4 v ++ [0, 0]

/-- A scalar core whose stream 0 holds a word in a near-store ring, submitted and fetched. -/
def ringDev (w : List Byte) (regs : List (Nat × Nat)) : Dev :=
  memPut (keyNear 0) w (put ([(regKey (.seq sc) (sOff 0 S_CTL), 1), (regKey (.seq sc) (sOff 0 S_TAIL_LO), w.length)] ++ regs) (coreDev sc []))
def fetchedDev (w : List Byte) (regs : List (Nat × Nat)) : Dev := after (.wordFetch sc 0) (st (ringDev w regs))

theorem streamOk_sc (w : List Byte) (r : List (Nat × Nat)) (h : 0 < (getCore sc (fetchedDev w r)).streams.length) : hasStream sc 0 (fetchedDev w r) :=
  ⟨by decide, by decide, h⟩

def seqDev (base tail : Nat) (on_ : Nat) : Dev :=
  memPut (keyNear 8) (toBytes 8 tail) (put [(regKey (.seq sc) (sOff 0 S_BASE_LO), base), (regKey (.seq sc) (sOff 0 S_TAILADDR_LO), 8),
    (regKey (.seq sc) (sOff 0 S_CTL), on_)] (coreDev sc []))

theorem witness_StreamControl :
    (hasStream sc 0 (seqDev 0 8 0) ∧ writable fwOrg (.seq sc) (sOff 0 S_CTL) (1 ||| 1) (seqDev 0 8 0) ∧ streamOn sc 0 (seqDev 0 8 0) = false ∧
      (baseOk sc 0 (seqDev 0 8 0) && tailOk sc 0 (seqDev 0 8 0)) = true ∧ isSafe (keyBlk (tailKey sc 0 (seqDev 0 8 0)) (seqDev 0 8 0)) (seqDev 0 8 0) = false ∧
      (seqDev 0 8 0).flaws = [] ∧ anyPoison (tailKey sc 0 (seqDev 0 8 0)) 8 (seqDev 0 8 0) = false ∧
      (memNat (tailKey sc 0 (seqDev 0 8 0)) 8 (seqDev 0 8 0) = 8)) ∧
    (baseOk sc 0 (seqDev 1 8 0) && tailOk sc 0 (seqDev 1 8 0)) = false ∧ writable fwOrg (.seq sc) (sOff 0 S_CTL) (1 ||| 1) (seqDev 1 8 0) ∧
    writable fwOrg (.seq sc) (sOff 0 S_CTL) (0 ||| 2) (seqDev 0 8 0) ∧ writable fwOrg (.seq sc) (sOff 0 S_BASE_HI) 0 (seqDev 0 8 0) ∧
    streamOn sc 0 (seqDev 0 8 1) = true ∧ (ringBytes sc 0 (seqDev 0 5000 1) : Int) < diff64 5000 (sHead sc 0 (seqDev 0 5000 1)) :=
  ⟨⟨⟨by decide, by decide, by decide +kernel⟩, writable_of_canWrite (by decide +kernel), by decide +kernel, by decide +kernel, by decide +kernel,
    by decide +kernel, by decide +kernel, by decide +kernel⟩, by decide +kernel, writable_of_canWrite (by decide +kernel),
    writable_of_canWrite (by decide +kernel), writable_of_canWrite (by decide +kernel), by decide +kernel, by decide +kernel⟩

/-- ENABLE reads the tail word (R155); a tail beyond the ring is refused with cause 10 (R158, R185). -/
theorem test_stream_enable : sTail sc 0 (after (.streamEnable fwOrg sc 0 1) (st (seqDev 0 8 0))) = 8 ∧
    rdF (.seq sc) SEQ_ILL 0 8 (after (.tailWrite sc 0) (st (seqDev 0 5000 1))) = 10 := by decide +kernel

/-- A break on a count of 0, lifted by RESUME (R184). -/
def brokenDev : Dev := put [(regKey (.seq sc) (sOff 0 S_CTL), 0x4D)] (coreDev sc [])
theorem test_resume : stopped sc 0 (after (.streamResume fwOrg sc 0 3) (st brokenDev)) = false ∧ stopped sc 0 brokenDev = true := by decide +kernel
theorem test_base_write : sHead sc 0 (after (.streamBaseWrite fwOrg sc 0 0) (st (put [(regKey (.seq sc) (sOff 0 S_HEAD_LO), 64)] (coreDev sc [])))) = 0 := by
  decide +kernel

def seti : List Byte := oneSlot 7 (4 + 3 * 16 + 0x1234 * 256)
def inc5 : List Byte := oneSlot 6 (2 + 5 * 8 + 1 * 2 ^ 21)
def wait5 : List Byte := oneSlot 6 (1 + 5 * 8 + 1 * 2 ^ 21)
def ldWord : List Byte := oneSlot 7 (2 + 3 * 16 + 2 * 256)
/-- A device whose scoreboard holds 64 regions. -/
def fullDev : Dev := modCore sc (fun x => { x with jobs := (List.range 64).map fun i => { jobOf (.ld 0 0) with id := i, stream := 1, regions := [⟨0, 8, false⟩] } }) (fetchedDev ldWord [])

theorem witness_WordIssue :
    (nextLine sc 0 (ringDev seti []) = some 0 ∧ baseOk sc 0 (ringDev seti []) = true ∧ isSafe (keyBlk (ringKey sc 0 0 (ringDev seti [])) (ringDev seti [])) (ringDev seti []) = false ∧
      (ringDev seti []).flaws = []) ∧
    examine sc 0 (fetchedDev (oneSlot 7 0) []) = .refuse 4 7 ∧
    examine sc 0 (fetchedDev seti [(regKey (.seq sc) (sOff 0 S_CTL), 9)]) = .break_ 0 ∧ examine sc 0 (fetchedDev wait5 []) = .wait 5 1 ∧
    examine sc 0 fullDev = .full ∧ (getStream sc 0 fullDev).sbFull = false ∧
    (examine sc 0 (fetchedDev (toBytes 2 0 ++ [0, 0]) []) = .ready (parseWord [0, 0, 0, 0]) 4 ∧ roundRobin sc (fetchedDev (toBytes 2 0 ++ [0, 0]) []) = some 0) ∧
    examine sc 0 (fetchedDev seti []) = .ready (parseWord seti) 8 ∧ (parseWord seti).slots = [(7, 0x123434)] ∧
    examine sc 0 (fetchedDev inc5 []) = .ready (parseWord inc5) 8 ∧ (parseWord inc5).slots = [(6, 0x20002A)] ∧
    streamBusy (getCore sc (fetchedDev inc5 [])) 0 = false ∧ 0 < (getCore sc (fetchedDev inc5 [])).streams.length := by decide +kernel

/-- A store, and the other operations of the SY slot: deferred, remote, remote and deferred, and the seam. -/
def stWord : List Byte := oneSlot 7 (3 + 3 * 16 + 2 * 256)
def syWord (op : Nat) : List Byte := oneSlot 6 (op + 5 * 8 + 1 * 2 ^ 17 + 1 * 2 ^ 21)

theorem witness_WordIssue_forms :
    ((∀ w ∈ [ldWord, stWord, syWord 3, syWord 4, syWord 5, syWord 6], examine sc 0 (fetchedDev w []) = .ready (parseWord w) 8 ∧ roundRobin sc (fetchedDev w []) = some 0) ∧
      (parseWord ldWord).slots = [(7, 0x232)] ∧ (parseWord stWord).slots = [(7, 0x233)] ∧ (parseWord (syWord 4)).slots = [(6, 0x22002C)]) ∧
    (flagOpen (coreCtx sc (fetchedDev inc5 [])) 5 (fetchedDev inc5 []) = true ∧ rdBit (flagBlk 0) ECC_INJ 3 (fetchedDev inc5 []) = false) ∧
    (sreg sc 0 1 (fetchedDev (syWord 4) []) % 32768 = ownDev (fetchedDev (syWord 4) []) ∧ addrOk (gAddr 0 4 40) (fetchedDev (syWord 4) []) = true ∧ gDev (gAddr 0 4 40) = 0 ∧
      (fetchedDev (syWord 4) []).net.holding = none) := by decide +kernel

/-- SETI writes S3 and HEAD passes the word; JUMP by -2 goes 8 bytes back (R171). -/
theorem test_sc : sreg sc 0 3 (after (.wordStart sc 0) (st (fetchedDev seti []))) = 0x1234 ∧ sHead sc 0 (after (.wordStart sc 0) (st (fetchedDev seti []))) = 8 ∧
    sHead sc 0 (after (.wordStart sc 0) (st (fetchedDev (oneSlot 7 (8 + 0xFFFFFE * 256)) []))) = 2 ^ 64 - 8 := by decide +kernel

/-- INC with IMM 1 adds 2 to flag 5 (R177). -/
theorem test_inc : flagVal 0 5 (after (.wordStart sc 0) (st (fetchedDev inc5 []))) = 2 := by decide +kernel
theorem test_alu : scAlu 1 0 1 = 2 ^ 64 - 1 ∧ scAlu 8 (2 ^ 64 - 1) 1 = 2 ^ 64 - 1 ∧ scAlu 5 1 65 = 2 ∧ scAlu 0xE 0x80000000 0 = 0 := by decide +kernel
theorem test_scoreboard_full : rdF (.seq sc) R_FAULT 0 16 (after (.scoreboardFull sc 0) (st fullDev)) = cScoreboardFull := by decide +kernel

def ldDev (a : Nat) : Dev := memPut (keyLoc sc 16) (toBytes 8 0x0123456789ABCDEF) (coreDev sc [jobOf (.ld 3 a)])
def updDev (r : Option Nat) (w : Bool) : Dev :=
  modCore sc (fun x => { x with upds := [⟨0, 0, 5, 2, r, true, w⟩] }) (coreDev sc [])
/-- A remote update for device 7, to which there is no flow. -/
def badUpd : Dev := put [(bankKey (.seq sc) (sOff 0 S_SREG_LO) 3, 7)] (updDev (some 3) false)
def waitDev : Dev :=
  modCore sc (fun x => { x with notices := [5], streams := { wait := some ⟨5, 1, 0, false⟩ } :: x.streams.drop 1 })
    (put [(regKey .tck TCK_FRAME_EN_LO, 1)] (coreDev sc []))

theorem witness_ScAndFlags :
    (scJob sc 0 (ldDev 16) = some (jobOf (.ld 3 16)) ∧ idle (.lmm sc) (ldDev 16) = false ∧ (getCore sc (ldDev 16)).upds = [] ∧ (ldDev 16).flaws = [] ∧
      anyPoison (keyLoc sc 16) 8 (ldDev 16) = false ∧ 0 < (getCore sc (ldDev 16)).streams.length) ∧
    (scJob sc 0 (coreDev sc [jobOf (.st 3 16)]) = some (jobOf (.st 3 16)) ∧ rdBit (.lmm sc) ECC_INJ 3 (coreDev sc []) = false) ∧
    (lmSize sc < 0x400000 + 8 ∧ scJob sc 0 (ldDev 0x400000) = some (jobOf (.ld 3 0x400000)) ∧
      getJob 0 (getCore sc (ldDev 0x400000)) = some (jobOf (.ld 3 0x400000))) ∧
    (dueUpdate sc 0 false (updDev none true) = some ⟨0, 0, 5, 2, none, true, true⟩ ∧ dueUpdate sc 0 false (updDev none false) = some ⟨0, 0, 5, 2, none, true, false⟩ ∧
      flagPoison 0 5 (updDev none false) = false ∧ rdBit (flagBlk 0) ECC_INJ 3 (updDev none false) = false) ∧
    (dueUpdate sc 0 true (updDev (some 0) true) = some ⟨0, 0, 5, 2, some 0, true, true⟩ ∧ dueUpdate sc 0 true (updDev (some 0) false) = some ⟨0, 0, 5, 2, some 0, true, false⟩ ∧
      addrOk (gAddr 0 4 40) (updDev (some 0) false) = true ∧ gDev (gAddr 0 4 40) = 0 ∧ ownDev (updDev (some 0) false) = 0 ∧ (updDev (some 0) false).net.holding = none) ∧
    (sreg sc 0 0 (updDev (some 0) false) = 0 ∧ flagOpen 0 5 (updDev none false) = true) ∧
    (sreg sc 0 3 badUpd = 7 ∧ controlFlow sc 7 badUpd = none ∧ ownDev badUpd = 0 ∧ dueUpdate sc 0 true badUpd = some ⟨0, 0, 5, 2, some 3, true, false⟩) ∧
    ((getCore sc waitDev).notices = [5] ∧ (getStream sc 0 waitDev).wait = some ⟨5, 1, 0, false⟩ ∧ 5 < stitchFlag ∧ framed (coreCtx sc waitDev) waitDev = true ∧
      stopped sc 0 waitDev = false) := by decide +kernel

theorem test_sc_ld : sreg sc 0 3 (after (.scLd sc 0) (st (ldDev 16))) = 0x0123456789ABCDEF := by decide +kernel
theorem test_sc_st : lmNat sc 16 8 (after (.scSt sc 0) (st (put [(bankKey (.seq sc) (sOff 0 S_SREG_LO) 3, 7)] (coreDev sc [jobOf (.st 3 16)])))) = 7 := by
  decide +kernel
/-- A load beyond the 4 MiB of a scalar core's local memory stops the stream (R220, R523). -/
theorem test_sc_ld_fault : stopCause sc 0 (after (.scLd sc 0) (st (ldDev 0x400000))) = 4 := by decide +kernel
theorem test_inc_done : flagVal 0 5 (after (.syIncDone sc 0) (st (updDev none false))) = 2 ∧ flagVal 0 5 (after (.syIncDone sc 0) (st (updDev none true))) = 0 := by
  decide +kernel
theorem test_remote_flag : (after (.syIncRemoteDone sc 0) (st (updDev (some 0) false))).net.mesh.map (fun m => (m.a.pkt.op, m.a.pkt.addr)) =
    [(Op.flagAdd, gAddr 0 4 40)] := by decide +kernel
theorem test_slot_complete : (getCore sc (after (.slotComplete sc 0) (st (coreDev sc [{ jobOf (.ld 0 0) with phase := .done }, jobOf (.ld 1 0)])))).jobs =
    [jobOf (.ld 1 0)] := by decide +kernel
theorem test_notice_not_reached : (getStream sc 0 (after (.flagNotice sc) (st waitDev))).wait = some ⟨5, 1, 0, false⟩ := by decide +kernel
theorem test_wait_timeout : rd (.seq sc) SEQ_TMO (after (.flagWaitTimeout sc 0) (st waitDev)) = 80 := by decide +kernel

/-! ### Tack unit, buffers and stream engines -/

def tackDev (w : Work) : Dev := memPut (keyLoc mx 64) [1, 2] (coreDev mx [jobOf w])
/-- Bytes 64 and 65 to near-store offset 0x100, and to an offset outside every memory. -/
def putWork (a : Nat) : Work := .tackPut a 64 2 false false 0

theorem witness_TackAndTiles :
    (tackHead mx (tackDev (putWork 0x100)) = some (jobOf (putWork 0x100)) ∧ getJob 0 (getCore mx (tackDev (putWork 0x100))) = some (jobOf (putWork 0x100)) ∧
      tackOk mx false 0x100 64 2 (tackDev (putWork 0x100)) = true ∧ gDev 0x100 = ownDev (tackDev (putWork 0x100)) ∧ (tackDev (putWork 0x100)).flaws = []) ∧
    (tackHead mx (tackDev (putWork (2 ^ 45))) = some (jobOf (putWork (2 ^ 45))) ∧ tackOk mx false (2 ^ 45) 64 2 (tackDev (putWork (2 ^ 45))) = false) ∧
    (tackHead mx (tackDev (.tackGet 0x100 64 2 true 5)) = some (jobOf (.tackGet 0x100 64 2 true 5)) ∧ tackOk mx false 0x100 64 2 (tackDev (.tackGet 0x100 64 2 true 5)) = true) ∧
    (headJob 3 (getCore mx (tackDev (.transpose 0 2 1 64 128 2 4 false 0))) = some (jobOf (.transpose 0 2 1 64 128 2 4 false 0)) ∧
      headJob 4 (getCore mx (tackDev (.transpose 0 2 1 64 128 2 4 false 0))) = none ∧ idle (.txb mx) (tackDev (putWork 0)) = false ∧
      rangesIn mx (txRanges 2 1 64 128 2 4) = true ∧ rangesIn mx (txRanges 2 1 (2 ^ 23 - 64) 128 64 4) = false) ∧
    ((getCore mx (coreDev mx [{ jobOf (.transpose 0 2 1 64 128 2 4 false 0) with phase := .running }])).jobs.find?
        (fun k => unitOf k.work == 3 && decide (k.phase = .running)) = some { jobOf (.transpose 0 2 1 64 128 2 4 false 0) with phase := .running }) := by
  decide +kernel

theorem test_tack_put : (after (.tackPut mx) (st (tackDev (putWork 0x100)))).net.mesh.map (fun m => (m.a.pkt.op, m.a.pkt.addr, m.a.pkt.len, m.a.pkt.data)) =
    [(Op.put, 0x100, 1, [1, 2])] := by decide +kernel
theorem test_tack_get : (after (.tackGet mx) (st (tackDev (.tackGet 0x100 64 2 true 5)))).net.mesh.map (fun m => (m.a.pkt.op, m.a.pkt.addr, m.a.pkt.len)) =
    [(Op.get, 0x100, 1)] := by decide +kernel

/-- Two rows of one element, at a pitch of 2 bytes, become one row (R134). -/
theorem test_transpose : lmNat mx 128 4 (after (.transposeTileComplete mx 0)
    (st (memPut (keyLoc mx 64) [1, 2, 3, 4] (coreDev mx [{ jobOf (.transpose 0 2 1 64 128 2 4 false 0) with phase := .running }])))) = 0x04030201 := by decide +kernel
theorem test_transpose_fault : stopCause mx 0 (after (.mvTranspose mx) (st (tackDev (.transpose 0 2 1 (2 ^ 23 - 64) 128 64 4 false 0)))) = 4 := by decide +kernel

/-- A transfer of 8 bytes from the near store to local memory of core 0 of context 0, whose logical flow 0 is bound. -/
def strD (dst : Nat) : StrDesc := ⟨0x100, dst, 8, [1, 1, 1, 1], 5, true, false, 0, [0, 0, 0, 0], [0, 0, 0, 0], 0, 0, 0, 0, false⟩
def strJob (dst : Nat) : Job := jobOf (.stream 0 3 (some (strD dst)))
def strDev (dst : Nat) (q : StrSt) : Dev :=
  setStr 0 q { on [.str 0 0 0] (put [(regKey (.seq mx) SEQ_CTX, 2 ^ 31)] (coreDev mx [strJob dst])) with
    binds := [(0, 1)], net := { binds := [⟨0, 0, 4, 0, 0, 0, 0, 0, 0⟩] } }
def startOf (dst : Nat) : Start := ⟨mx, 0, 0, 3, some (strD dst)⟩
def endedXfer : Xfer := { id := 0, s := startOf 0, d := strD 0, pos := 8 }

theorem witness_StreamEngines :
    (headJob 5 (getCore mx (strDev 0x200 {})) = some (strJob 0x200) ∧ depsClear (strJob 0x200) (getCore mx (strDev 0x200 {})) = true) ∧
    (idle (strBlk mx 0) (strDev 0x104 { queue := [startOf 0x104] }) = false ∧ (getStr 0 (strDev 0x104 { queue := [startOf 0x104] })).queue = [startOf 0x104] ∧
      strCause mx (some (strD 0x104)) (strDev 0x104 { queue := [startOf 0x104] }) = some (4, some 0x104) ∧
      getJob 0 (getCore mx (strDev 0x104 { queue := [startOf 0x104] })) = some (strJob 0x104)) ∧
    (strCause mx (some (strD 0x200)) (strDev 0x200 { queue := [startOf 0x200] }) = none ∧ 0 < strTotal (strD 0x200) ∧ strOut {} < 256 ∧
      splitElem (strD 0x200) 0 = false ∧ (getStr 0 (strDev 0x200 { queue := [startOf 0x200] })).xfers = [] ∧ gDev (pieceAt (strD 0x200) 0).1 = ownDev (strDev 0x200 {}) ∧ (strDev 0x200 {}).net.holding = none) ∧
    (xferEnded endedXfer = true ∧ endedXfer.ended = false ∧ (getStr 0 (strDev 0 { xfers := [endedXfer] })).xfers = [endedXfer] ∧
      rdBit (flagBlk 0) ECC_INJ 3 (strDev 0 {}) = false) := by decide +kernel

theorem test_mv_stream : (getStr 0 (after (.mvStream mx) (st (strDev 0x200 {})))).queue = [startOf 0x200] := by decide +kernel
/-- Source and destination overlap: cause 4 (R241). -/
theorem test_stream_overlap : rdF (.str 0 0 0) STR_FLT 0 8 (after (.streamTransferBegin 0 0 0) (st (strDev 0x104 { queue := [startOf 0x104] }))) = 4 := by
  decide +kernel
theorem test_stream_flag : flagVal 0 5 (after (.streamTransferComplete 0 0 0) (st (strDev 0 { xfers := [endedXfer] }))) = 1 := by decide +kernel

/-! ### The Stitch -/

def tckDev (ws : List (Nat × Nat)) (t : TckSt) : Dev := put ws { served [.tck, .arr mx] with tck := t }
/-- The same with 64-bit registers given by their halves. -/
def atStitch (n : Nat) : List (Nat × Nat) := [(regKey .tck TCK_NUM_LO, n % 2 ^ 32), (regKey .tck TCK_NUM_HI, n / 2 ^ 32)]
def calmDev : Dev := tckDev (atStitch 4999999) {}

theorem calm_of {d : Dev} (h : (tckRuns d && decide (d.jobs = []) && decide (d.press = []) && decide (d.snap = []) && decide (d.tck.late = []) &&
    decide (d.tck.stops = []) && decide (d.mod_.glitches = []) && decide (d.net.holding = none) && decide (d.net.tablesWait = false) && !rdBit .fab FAB_CMAP_CTL 0 d &&
    decide (childLinks d = [])) = true) : calm d := by
  simpa [calm, and_assoc] using h

/-- Context 0 framed, with a stream of core `mx` that has work left and no wait. -/
def lateDev : Dev :=
  on [flagBlk 0] { tckDev (atStitch 7 ++ [(regKey .tck TCK_FRAME_EN_LO, 1), (regKey (.seq mx) (sOff 0 S_CTL), 1), (regKey (.seq mx) (sOff 0 S_TAIL_LO), 64)]) {} with binds := [(0, 1)] }

/-- SAT_E5M2 = 1 armed for Stitch 5,000,000, acknowledged or not. -/
def armOf (acked : List Nat) : Armed := { n := 5000000, org := host, pairs := [(regKey (.arr mx) ARR_CFG, 8)], acked := acked }
def armedDev (acked : List Nat) : Dev := tckDev (atStitch 4999999) { armed := [(3, armOf acked)] }
/-- The same for a register of FED. -/
def armFed (acked : List Nat) : Armed := { n := 5000000, org := host, pairs := [(regKey (.fed mx) FED_MAP_PITCH, 8)], acked := acked }
def fedDev (acked : List Nat) : Dev := on [.fed mx] (tckDev (atStitch 4999999) { armed := [(3, armFed acked)] })
def seamDev : Dev := tckDev (atStitch 42 ++ [(bankKey .tck TCK_SEG 0, 40)]) { seams := [(0, { due := some 43, own := some 40, start := 0 })] }

theorem witness_TheStitch :
    (calm calmDev ∧ calmDev.tck.armed = [] ∧ calmDev.tck.seams = [] ∧ rd64 .tck TCK_FRAME_EN_LO calmDev = 0 ∧ overruns calmDev = []) ∧
    (calm lateDev ∧ overruns lateDev = [(0, mx, 0, 1, false)] ∧ framed 0 lateDev = true ∧ flagPoison 0 stitchFlag lateDev = false ∧
      rdBit (flagBlk 0) ECC_INJ 3 lateDev = false) ∧
    (calm (fedDev [0]) ∧ calm (fedDev []) ∧ rd64 .tck TCK_FRAME_EN_LO (fedDev [0]) = 0 ∧ (armFed [0]).n ≤ (stitchNum (fedDev [0]) + 1) % 2 ^ 64 ∧
      physOffset host (regKey (.fed mx) FED_MAP_PITCH) (fedDev [0]) = some (regKey (.fed mx) FED_MAP_PITCH) ∧
      presentBlk (regKey (.fed mx) FED_MAP_PITCH) (fedDev [0]) = some (.fed mx) ∧ regOff (regKey (.fed mx) FED_MAP_PITCH) = FED_MAP_PITCH ∧
      viewOf (regKey (.fed mx) FED_MAP_PITCH) = 0 ∧ (regSpec (.fed mx) FED_MAP_PITCH).map (·.w1c) = some 0 ∧ plainBlk (.fed mx) = true ∧
      missReason (armFed [0]) (blkAcked (armFed [0]) (.fed mx) (fedDev [0])) (.fed mx) (fedDev [0]) = none ∧
      missReason (armFed []) (blkAcked (armFed []) (.fed mx) (fedDev [])) (.fed mx) (fedDev []) = some 1 ∧
      bit (rdB .tck TCK_MISS_INFO 0 (fedDev [])) 8 = false) ∧
    (calm seamDev ∧ seamDev.tck.seams = [(0, { due := some 43, own := some 40, start := 0 })] ∧ 43 ≤ (stitchNum seamDev + 1) % 2 ^ 64) :=
  ⟨⟨calm_of (by decide +kernel), by decide +kernel⟩, ⟨calm_of (by decide +kernel), by decide +kernel⟩, ⟨calm_of (by decide +kernel), calm_of (by decide +kernel), by decide +kernel⟩,
    calm_of (by decide +kernel), by decide +kernel⟩

/-- Context 0 framed, with nothing left to do. -/
def onTime : Dev := on [flagBlk 0] (tckDev (atStitch 7 ++ [(regKey .tck TCK_FRAME_EN_LO, 1)]) {})
theorem witness_TheStitch_flag : calm onTime ∧ onTime.tck.armed = [] ∧ onTime.tck.seams = [] ∧ overruns onTime = [] ∧ framed 0 onTime = true ∧ onTime.flaws = [] ∧
    rdBit (flagBlk 0) ECC_INJ 3 onTime = false ∧ flagServed 0 onTime = true ∧ flagPoison 0 stitchFlag onTime = false :=
  ⟨calm_of (by decide +kernel), by decide +kernel⟩

/-- The table of R202. -/
theorem test_budget_table : cyclesOf 1600 1850 = 29600 ∧ budgetOf 1600 1850 30 = 28712 ∧ cyclesOf 800 1900 = 15200 ∧ budgetOf 800 1900 50 = 14440 ∧
    budgetOf 400 1500 30 = 5820 ∧ budgetOf 25600 1900 30 = 471808 := by decide +kernel

/-- The change is applied at its Stitch; not acknowledged, the block is fenced instead (R213, R214). -/
theorem test_armed_apply : let d := after .stitch (st (armedDev [0])); rdBit (.arr mx) ARR_CFG 3 d = true ∧ fenced (.arr mx) d = false := by decide +kernel
theorem test_armed_miss : let d := after .stitch (st (armedDev [])); rdBit (.arr mx) ARR_CFG 3 d = false ∧ fenced (.arr mx) d = true := by decide +kernel

/-- Two changes of one Stitch, the higher offset first. -/
def twoDev : Dev := on [.fed mx] (tckDev (atStitch 4999999)
  { armed := [(3, { armFed [0, 1] with pairs := [(regKey (.fed mx) FED_MAP_PITCH, 8), (regKey (.arr mx) ARR_CFG, 8)] })] })
/-- R488: what takes effect in one mesh cycle is numbered in ascending ADDR order. -/
theorem test_cycle_order : let d := after .stitch (st twoDev);
    d.log.ring.map (fun e => (e.seq, e.addr)) = [(1, max (regKey (.fed mx) FED_MAP_PITCH) (regKey (.arr mx) ARR_CFG)),
      (0, min (regKey (.fed mx) FED_MAP_PITCH) (regKey (.arr mx) ARR_CFG))] := by decide +kernel

theorem canWrite_tck (o v : Nat) (t : TckSt) (h : canWrite host .tck o v (tckDev (atStitch 0) t) = true) : writable host .tck o v (tckDev (atStitch 0) t) :=
  writable_of_canWrite h

/-- Pairs built for Stitch 9, for Stitch 1, and a full list. -/
def buildDev (n : Nat) : Dev := tckDev [(regKey .tck TCK_ARM_NUM_LO, n)] { building := [(regKey (.arr mx) ARR_CFG, 8)] }
def longDev : Dev := tckDev [] { building := List.replicate 256 (0, 0) }
def heldArm : Armed := { n := 5000000, org := host, pairs := [(regKey (.arr mx) ARR_CFG, 8)] }
def missDev : Dev := tckDev [(bankKey .tck TCK_MISS_INFO 0, 0x113), (bankKey .tck TCK_MISS 0, blkId (.arr mx)), (regKey .tck TCK_MISS_CNT, 1)] {}

theorem witness_ArmedChanges :
    writable host .tck TCK_ARM_DATA 8 (buildDev 9) ∧ (buildDev 9).tck.building.length < 256 ∧ writable host .tck TCK_ARM_DATA 8 longDev ∧
    256 ≤ longDev.tck.building.length ∧ writable host .tck TCK_ARM_CTL (0 ||| 1) (buildDev 9) ∧ isSafe .tck (buildDev 9) = false ∧
    freeEntry (buildDev 9) = some 0 ∧ stitchNum (buildDev 9) + 1 < rd64 .tck TCK_ARM_NUM_LO (buildDev 9) ∧
    (buildDev 9).tck.building.all (fun p => match blkOf host p.1 (buildDev 9) with | some b => allows b host.cls (buildDev 9) | none => false) = true ∧
    rd64 .tck TCK_ARM_NUM_LO (buildDev 1) ≤ stitchNum (buildDev 1) + 1 ∧ writable host .tck TCK_ARM_CTL (0x300 ||| 2) (armedDev []) ∧
    writable host .tck TCK_ARM_CTL (0 ||| 4) (buildDev 9) ∧ writable host .tck TCK_MISS_INFO (0 ||| 512) missDev ∧ bit (rdB .tck TCK_MISS_INFO 0 missDev) 8 = true ∧
    ((tckDev (atStitch 9) { armed := [(3, heldArm)] }).tck.armed.find? (fun x => x.1 == 3) = some (3, heldArm) ∧
      pairBlk heldArm 0 (tckDev (atStitch 9) { armed := [(3, heldArm)] }) = some (.arr mx) ∧ heldArm.acked.contains 0 = false ∧
      inReset (.arr mx) (tckDev (atStitch 9) {}) = false ∧ pendingPairs (.arr mx) (tckDev (atStitch 9) { armed := [(3, heldArm)] }) < 4) :=
  ⟨writable_of_canWrite (by decide +kernel), by decide +kernel, writable_of_canWrite (by decide +kernel), by decide +kernel, writable_of_canWrite (by decide +kernel),
    by decide +kernel, by decide +kernel, by decide +kernel, by decide +kernel, by decide +kernel, writable_of_canWrite (by decide +kernel),
    writable_of_canWrite (by decide +kernel), writable_of_canWrite (by decide +kernel), by decide +kernel, by decide +kernel⟩

theorem test_arm_go : (after (.armGo host 0) (st (buildDev 9))).tck.armed.map (·.1) = [0] ∧ rdBit .tck TCK_ARM_STAT 8 (after (.armGo host 0) (st (buildDev 1))) = true := by
  decide +kernel
theorem test_arm_data_257 : rdBit .tck TCK_ARM_STAT 11 (after (.armData host 8) (st longDev)) = true ∧ (after (.armData host 8) (st longDev)).tck.building.length = 256 := by
  decide +kernel
/-- CANCEL is ignored from Stitch n − 1 on (R215). -/
theorem test_arm_cancel : (after (.armCancel host 0x300) (st (armedDev []))).tck.armed.length = 1 ∧
    (after (.armCancel host 0x300) (st (tckDev (atStitch 4999998) { armed := [(3, armOf [])] }))).tck.armed.length = 0 := by decide +kernel
theorem test_arm_discard : (after (.armDiscard host 0) (st (buildDev 9))).tck.building = [] := by decide +kernel
theorem test_levelled : rdB .tck TCK_MISS_INFO 0 (after (.missLevelled host 0) (st missDev)) = 0 := by decide +kernel
theorem test_delivery : (after (.armedPairDelivery 3 0) (st (tckDev (atStitch 4999998) { armed := [(3, heldArm)] }))).tck.armed.map (·.2.acked) = [[0]] ∧
    (after (.armedPairDelivery 3 0) (st (armedDev []))).tck.armed.map (·.2.acked) = [[]] := by decide +kernel

/-- Device 1 of a ring of two, whose parent is device 0 over L4; and the root with its child over L0. -/
def leafDev (t : TckSt) : Dev := tckDev [(regKey .glb GLB_TORUS, 1), (regKey .glb GLB_DEVNUM, 2 ^ 31 + 1)] t
def treeRoot (t : TckSt) : Dev := tckDev [(regKey .glb GLB_TORUS, 1), (regKey .glb GLB_DEVNUM, 2 ^ 31), (regKey .tck TCK_CFG, 3)] t
def tick1 : Tick := ⟨9, 1600, 0, false, 2, 1⟩

theorem witness_Timebase :
    (tckRuns (leafDev {}) = true ∧ parentLink (leafDev {}) = some 4 ∧ (leafDev {}).tck.lenArm = none ∧ tick1.holdExp = false ∧ childLinks (leafDev {}) = [] ∧
      bit tick1.announce 0 = true ∧ 0 < tick1.lead ∧ (getSeam 0 (leafDev { seams := [(0, { own := some 3 })] })).due = none) ∧
    parentLink (leafDev {}) ≠ some 0 ∧
    (tckRuns (treeRoot {}) = true ∧ rdBit .tck TCK_CFG 0 (treeRoot {}) = true ∧ rdBit .tck TCK_CFG 1 (treeRoot {}) = true ∧
      (treeRoot { aligned := true, synced := true }).tck.aligned = true ∧ 100100 < 100101) ∧
    ((leafDev { missed := 4 }).tck.missed = 4 ∧ (parentLink (leafDev {})).any (fun l => !linkUp l (leafDev {})) = true ∧
      rdBit .tck TCK_CFG 0 (leafDev {}) = false) ∧
    ((leafDev { holdover := true }).tck.holdover = true ∧ (leafDev { holdover := true }).tck.expired = false) := by decide +kernel

/-- A tick of the parent: the number, the offset, and the announced seam (R196, R207). -/
theorem test_tick : let d := after (.tickMessage 4 ⟨tick1, false⟩ (-30)) (st (leafDev { seams := [(0, { own := some 3 })] }));
    stitchNum d = 9 ∧ rd .tck TCK_OFFSET d = 0xFFE2 ∧ (getSeam 0 d).due = some 11 ∧ d.tck.good = 1 := by decide +kernel
theorem test_stray_edge : rd .pci PCI_PIN_STRAY (after (.tickSyncEdge 100101) (st (treeRoot { aligned := true, synced := true }))) = 1 ∧
    rd .pci PCI_PIN_STRAY (after (.tickSyncEdge 100100) (st (treeRoot { aligned := true, synced := true }))) = 0 := by decide +kernel
theorem test_holdover_entry : (after (.holdoverEntry 0) (st (leafDev { missed := 4 }))).tck.holdover = true ∧
    (after (.holdoverEntry 0) (st (leafDev { missed := 3 }))).tck.holdover = false := by decide +kernel
theorem test_holdover_expiry : rdF .tck TCK_HOLD 0 14 (after .holdoverExpiry (st (leafDev { holdover := true }))) = 10000 := by decide +kernel

/-- A pattern of no cores. -/
def pat0 : Pattern := ⟨{}, true, [0, 1], true, 1600, 30, 0, 40, 2, 1, 1, 1, 1, 1, [], [], [], [], [], [], [], [], [], [], [], none⟩
/-- One core bound in context 5, its stream at the barrier. -/
def barDev (sm : SeamSt) (at_ : Nat) : Dev :=
  modCore mx (fun x => { x with streams := { seam := true } :: x.streams.drop 1 })
    { put (atStitch at_ ++ [(regKey (.seq mx) (sOff 0 S_CTL), 1)]) (leafDev { seams := [(5, sm)] }) with binds := [(5 * 1024, 1)] }

theorem witness_SeamBarrier :
    ((childLinks (treeRoot {})).contains 0 = true ∧ (childLinks (treeRoot {})).contains 4 = false) ∧
    ((getSeam 5 (barDev {} 3)).own = none ∧ (ctxCores 5 (barDev {} 3)).isEmpty = false ∧ allArrived 5 (barDev {} 3) = true ∧ (barDev {} 3).jobs = [] ∧
      (barDev {} 3).snap = [] ∧ (barDev {} 3).press = []) ∧
    (allArrived 5 (modCore mx (fun x => { x with streams := List.replicate 4 {} }) (barDev {} 3)) = false) ∧
    (bound 5 { barDev { own := some 2 } 70 with jobs := [{ ctx := 5, pat := pat0, phase := 1 }] } = true ∧ anyHeld 5 (barDev { own := some 2 } 70) = false ∧
      stitchNum (barDev { own := some 2 } 70) = 70 ∧ 2 + rdF .tck TCK_SEAM 8 8 (barDev {} 0) ≤ 70) := by decide +kernel

/-- The barrier of a context whose core has a request out is late. -/
def lateBar : Dev := { barDev { own := some 2 } 70 with jobs := [{ ctx := 5, pat := pat0, phase := 1 }], net := { reqs := [{ tag := 1, by_ := .tack mx 0, op := .put, addr := 0, bytes := 1 }] } }
theorem witness_SeamBarrier_late : captureDue 5 (barDev {} 3) = false ∧ bound 5 lateBar = true ∧ anyHeld 5 lateBar = false ∧ (getSeam 5 lateBar).own = some 2 ∧
    (getSeam 5 lateBar).start + bits (rdB .tck TCK_SEG 5 lateBar) 0 16 + rdF .tck TCK_SEAM 8 8 lateBar ≤ stitchNum lateBar ∧
    2 + rdF .tck TCK_SEAM 8 8 lateBar ≤ stitchNum lateBar ∧ lateBar.runs = [] ∧ hostHolds false lateBar = false ∧ ctxCores 5 lateBar = [mx] ∧
    (∃ q ∈ lateBar.net.reqs, byDom (.core mx) q.by_ lateBar = true) := by decide +kernel

/-- The leaf's own arrival is its whole subtree's, and goes up (R206). -/
theorem test_seam_arrival : (getSeam 5 (after (.deviceSeamArrival 5) (st (barDev {} 3)))) = { own := some 3, sent := true } := by decide +kernel
theorem test_child_arrival : (getSeam 5 (after (.seamArrivalMessage 0 5 true) (st (treeRoot {})))).kids = [(0, true)] := by decide +kernel
theorem test_hold_dropped : (getSeam 5 (after (.refitHoldExpiry 5) (st (treeRoot { seams := [(5, { held := true, kids := [(0, true)], sent := true })] })))) = { own := none } := by
  decide +kernel
/-- An idle leaf counts as arrived in every context (R206). -/
theorem test_idle_leaf : bit (arriveMask (leafDev {})) 7 = true ∧ bit (arriveMask (barDev {} 3)) 5 = false := by decide +kernel
/-- A barrier that has not completed in 64 Stitches loses the silent device: at a leaf that has arrived, its parent (R209). -/
theorem test_seam_timeout : rd .fab FAB_LOST (after (.seamTimeout 5) (st { barDev { own := some 2 } 70 with jobs := [{ ctx := 5, pat := pat0, phase := 1 }] })) = 5 * 65536 + 2 ^ 24 := by
  decide +kernel

/-! ### Registers, resets and the host port -/

/-- FED of core `mx`, open or closed to the host. -/
def fedOpen : Dev := served [.fed mx]
def fedShut : Dev := put [(regKey (.fed mx) R_WPERM, 0x80000001)] fedOpen
/-- HI halves kept for an earlier read of LO by the host. -/
def latchDev : Dev := { served [.tck] with hiLatch := [((regKey .tck TCK_NUM_HI, 1, 0), 77)] }

theorem witness_RegisterWrites :
    (reaches host (.fed mx) FED_MAP_PITCH fedOpen ∧ (regSpec (.fed mx) FED_MAP_PITCH).map (·.w1c) = some 0 ∧ frozen (.fed mx) FED_MAP_PITCH false fedOpen = false ∧
      (regSpec (.fed mx) FED_MAP_PITCH).map (fun sp => denied host (.fed mx) FED_MAP_PITCH 0 256 sp fedOpen) = some false ∧ plainBlk (.fed mx) = true ∧
      0x40 ≤ FED_MAP_PITCH ∧ FED_MAP_PITCH ≠ R_WPERM) ∧
    (reaches host (.fed mx) FED_MAP_PITCH fedShut ∧ (regSpec (.fed mx) FED_MAP_PITCH).map (fun sp => denied host (.fed mx) FED_MAP_PITCH 0 256 sp fedShut) = some true ∧
      faultValid (.fed mx) fedShut = false) ∧
    (isHost fwOrg = false ∧ inLcw 0x10040 = false ∧ 0x10040 % 8 = 0 ∧ ∃ t, exec (.registerWrite fwOrg 0x10040 4 5) (st fedOpen) = .next t) :=
  ⟨⟨reaches_of_canReach (by decide +kernel), by decide +kernel⟩, ⟨reaches_of_canReach (by decide +kernel), by decide +kernel⟩, rfl, rfl, rfl, _, rfl⟩

/-- A denied write leaves the register and is logged (R58). -/
theorem test_write_denied : let a := regKey (.fed mx) FED_MAP_PITCH;
    rd (.fed mx) FED_MAP_PITCH (after (.registerWrite host a 4 256) (st fedShut)) = 0 ∧
    (after (.registerWrite host a 4 256) (st fedShut)).log.ring.map (fun e => (e.new, e.denied)) = [(256, true)] ∧
    rd (.fed mx) FED_MAP_PITCH (after (.registerWrite host a 4 256) (st fedOpen)) = 256 := by decide +kernel

/-- The views of R37: 1 sets, 2 clears, 3 toggles. -/
theorem test_views : viewed 1 5 2 15 = 7 ∧ viewed 2 5 4 15 = 1 ∧ viewed 3 5 6 15 = 3 ∧ viewed 0 5 6 15 = 6 := by decide +kernel

theorem witness_RegisterReads :
    (reaches host .tck TCK_LEN (served [.tck]) ∧ (regSpec .tck TCK_LEN).isSome = true ∧ (served [.tck]).parityBad.contains (accKey .tck TCK_LEN (served [.tck])) = false ∧
      isLo .tck TCK_LEN = false ∧ ¬ (TCK_LEN = LOG_FREAD ∧ Blk.tck = .log) ∧ (∀ c, Blk.tck ≠ .seq c)) ∧
    (reaches host .tck TCK_NUM_LO latchDev ∧ isLo .tck TCK_NUM_LO = true) ∧
    (reaches host .tck TCK_NUM_HI latchDev ∧ isLo .tck TCK_NUM_HI = false ∧
      (latchDev.hiLatch.find? fun h => decide (h.1 = (regKey .tck TCK_NUM_HI, host.cls, host.id))) = some ((regKey .tck TCK_NUM_HI, host.cls, host.id), 77)) :=
  ⟨⟨reaches_of_canReach (by decide +kernel), by decide +kernel, by decide +kernel, by decide +kernel, by decide +kernel, fun _ => by simp⟩,
    ⟨reaches_of_canReach (by decide +kernel), by decide +kernel⟩, reaches_of_canReach (by decide +kernel), by decide +kernel, by decide +kernel⟩

/-- A read of LO keeps HI (R111). -/
theorem test_counter_read : let d := after (.counterLoRead host (regKey .tck TCK_NUM_LO)) (st (put (atStitch (3 * 2 ^ 32 + 9)) (served [.tck])));
    d.out = [.regData 9] ∧ d.hiLatch = [((regKey .tck TCK_NUM_HI, 1, 0), 3)] := by decide +kernel

/-- A write and a read through the logical-core window held by a refit that is over (R64). -/
def heldAcc (v : Option Nat) : Dev := { served [] with lcwHeld := [(host, 0x0C000040, 4, v)] }

theorem witness_ParityAndHeldAccesses :
    (blkOk (.fed mx) = true ∧ inReset (.fed mx) fedOpen = false ∧ presentBlk (blkBase (.fed mx)) fedOpen = some (.fed mx) ∧
      (regSpec (.fed mx) FED_MAP_PITCH).map (fun sp => oddOnes (256 &&& (sp.rw ||| sp.rwl))) = some true ∧ fedOpen.parityBad = [] ∧
      keyBlock (accKey (.fed mx) FED_MAP_PITCH fedOpen) = some (.fed mx) ∧ regOff (accKey (.fed mx) FED_MAP_PITCH fedOpen) = FED_MAP_PITCH) ∧
    ((heldAcc (some 3)).lcwHeld = [(host, 0x0C000040, 4, some 3)] ∧ lcwWaits host 0x0C000040 (heldAcc (some 3)) = false ∧
      (heldAcc none).lcwHeld = [(host, 0x0C000040, 4, none)]) := by decide +kernel

/-- An access of FED held by a refit that is over. -/
def heldFed (v : Option Nat) : Dev := { fedOpen with lcwHeld := [(host, addrFor host (.fed mx) FED_MAP_PITCH fedOpen, 4, v)] }
theorem witness_ParityAndHeldAccesses_served :
    (reaches host (.fed mx) FED_MAP_PITCH (heldFed none) ∧ (heldFed none).lcwHeld = [(host, addrFor host (.fed mx) FED_MAP_PITCH (heldFed none), 4, none)] ∧
      (heldFed none).parityBad = [] ∧ isLo (.fed mx) FED_MAP_PITCH = false ∧ FED_MAP_PITCH ≠ SEQ_SB_STAT ∧ FED_MAP_PITCH ≠ LOG_FREAD ∧ (heldFed none).hiLatch = []) ∧
    (writable host (.fed mx) FED_MAP_PITCH 256 (heldFed (some 256)) ∧
      (heldFed (some 256)).lcwHeld = [(host, addrFor host (.fed mx) FED_MAP_PITCH (heldFed (some 256)), 4, some 256)] ∧
      (regSpec (.fed mx) FED_MAP_PITCH).map (·.w1c) = some 0 ∧ plainBlk (.fed mx) = true) :=
  ⟨⟨reaches_of_canReach (by decide +kernel), by decide +kernel⟩, writable_of_canWrite (by decide +kernel), by decide +kernel⟩

/-- A single upset bit puts the block in its safe state and counts (R54, R55); two in one register pass unseen. -/
theorem test_parity_scan : let d := after (.parityScan (.fed mx) [(FED_MAP_PITCH, 256)]) (st fedOpen);
    isSafe (.fed mx) d = true ∧ rdF (.fed mx) R_FAULT 0 16 d = cCfgParity ∧ isSafe (.fed mx) (after (.parityScan (.fed mx) [(FED_MAP_PITCH, 768)]) (st fedOpen)) = false := by
  decide +kernel

/-- A core with a request out, and the same with none; the context 5 it is bound to. -/
def tackReq (c : CoreRef) : Req := { tag := 1, by_ := .tack c 0, op := .put, addr := 0x100, bytes := 2 }
def resetDev (rs : List Req) : Dev := { coreDev mx [] with net := { reqs := rs } }
def strReq : Req := { tag := 1, by_ := .fetch 0 0 0 0 0x200 true, op := .get, addr := 0x100, bytes := 8 }
def ctxDev : Dev := { put [(regKey (.seq mx) SEQ_CTX, 2 ^ 31 + 5)] (resetDev [tackReq mx]) with binds := [(5 * 1024, 1)] }
def drainRun : ResetRun := { dom := .core mx, doms := [.core mx], rst := .rstd 0, entry := 0 }

theorem witness_BlockResets :
    ((resetDev [tackReq mx]).runs = [] ∧ coreOk mx = true ∧ slotAbsent mx (resetDev [tackReq mx]) = false ∧ byDom (.core mx) (tackReq mx).by_ (resetDev [tackReq mx]) = true ∧
      byDom (.cluster 0 0) (tackReq mx).by_ (resetDev [tackReq mx]) = true ∧ byDom (.die 0) (tackReq mx).by_ (resetDev [tackReq mx]) = true ∧
      (resetDev [tackReq mx]).binds = [] ∧ pressContexts (resetDev [tackReq mx]) = [] ∧ byDom (.engine (.str 0 0 0)) strReq.by_ (resetDev [strReq]) = true) ∧
    (hostHolds false ctxDev = false ∧ (ctxCores 5 ctxDev) = [mx] ∧ ctxDev.net.reqs = [tackReq mx]) ∧
    ((resetDev []).net.reqs = [] ∧ (resetDev []).runs = [] ∧ (resetDev []).net.groups = []) ∧
    (({ resetDev [] with runs := [drainRun] } : Dev).runs.find? fun r => decide (r.dom = .core mx) && !r.done) = some drainRun ∧
    (rdBit .tck R_CTRL 0 (served [.tck]) = true ∧ fenced .tck (served [.tck]) = false ∧ isSafe .tck (served [.tck]) = false ∧ (served [.tck]).net.holding = none ∧
      (served [.tck]).runs = [] ∧ (served [.tck]).net.reqs = [] ∧ (served [.tck]).net.groups = [] ∧ watchdogHeld .tck (served [.tck]) = false ∧
      watchdogHeld .tck (resetDev []) = true) := by decide +kernel

/-- A core reset with nothing out is performed at once, and recorded (R433, R446). -/
theorem test_core_reset : let d := after (.coreReset mx 3) (st (resetDev []));
    d.resets = [.core mx] ∧ rdB (.rstd 0) RST_REC 0 d = 2 + 3 * 2 ^ 19 + 2 ^ 31 + blkInstance (.cor mx) % 65536 * 8 := by decide +kernel
/-- R438: the watchdog of a unit that is not enabled does not count. -/
theorem test_unit_watchdog : (after (.unitWatchdog .tck) (st (served [.tck]))).resets = [.engine .tck] ∧ (after (.unitWatchdog .tck) (st (resetDev []))).resets = [] := by decide +kernel
theorem test_reset_waits : let d := after (.coreReset mx 3) (st (resetDev [tackReq mx])); d.resets = [] ∧ fenced (.seq mx) d = true := by decide +kernel
theorem test_drain_limit : (after (.drainLimitExpiry (.core mx)) (st { resetDev [tackReq mx] with runs := [drainRun] })).resets = [.core mx] := by decide +kernel
theorem test_context_reset : let d := after (.contextReset 5 0) (st ctxDev); d.out = [.msix 6 0] ∧ d.runs.map (·.doms) = [[.core mx]] := by decide +kernel

def rstDev : Dev := served [.rst, .tck]
def ctxRun : ResetRun := { dom := .context 5, doms := [.core mx], rst := .rst, entry := 0 }
def engRun (b : Blk) : ResetRun := { dom := .engine b, doms := [.engine b], rst := .rst, entry := 0, done := true }
/-- A manifest for matrix cores of two chunks, the first of two bytes of zeros. -/
def fwDev : Dev :=
  modCore mx (fun x => { x with fwWait := true }) (memPut (keyNear (manifestAt 0 + 8)) (toBytes 4 8192)
    (memPut (keyNear (manifestAt 0 + 64)) (Keccak.shake256 (toBytes 4 0 ++ [0, 0]) 32) (served [.cor mx])))

theorem witness_RequestedResets :
    (writable host .tck R_CTRL (1 ||| 4) rstDev ∧ isSafe .tck rstDev = false ∧ isSafe (rstOf .tck) rstDev = false ∧ missListed .tck rstDev = false) ∧
    (writable host .rst RST_CTX_RESET (5 ||| 256) rstDev ∧ writable host .rst RST_WDOG_KICK (0 ||| 1) rstDev ∧ writable host .rst RST_FW (0 ||| 0x10000000) rstDev ∧
      boundCtxs rstDev = []) ∧
    ((({ resetDev [tackReq mx] with runs := [ctxRun] } : Dev).runs.find? fun r => decide (r.dom = .context 5)) = some ctxRun ∧
      byDom (.core mx) (tackReq mx).by_ (resetDev [tackReq mx]) = true ∧ (resetDev []).net.reqs = [] ∧ (resetDev []).net.groups = []) ∧
    (blkDie (.str 0 0 0) = some 0 ∧ (engRun (.str 0 0 0)).dom = .engine (.str 0 0 0)) ∧
    ((({ rstDev with runs := [engRun .tck], resets := [.engine .tck] } : Dev).runs.find? fun r => decide (r.dom = .engine .tck) && r.done) = some (engRun .tck)) ∧
    (fwDev.binds = [] ∧ fenced (.cor mx) fwDev = false ∧ (getCore mx fwDev).fwWait = true ∧ (getCore mx fwDev).chunks.contains 0 = false ∧
      0 < fwChunks (coreTy mx) fwDev ∧ (getCore mx fwDev).chunks.length + 1 ≠ fwChunks (coreTy mx) fwDev ∧ chunkOk (coreTy mx) 0 [0, 0] fwDev = true) :=
  ⟨⟨writable_of_canWrite (by decide +kernel), by decide +kernel⟩, ⟨writable_of_canWrite (by decide +kernel), writable_of_canWrite (by decide +kernel),
    writable_of_canWrite (by decide +kernel), by decide +kernel⟩, by decide +kernel⟩

/-- Requests for resets with a request of core `mx` out, of PWR and of context 5; and resets that a limit ends. -/
def askDev : Dev := on [.cor mx, .clu 0 0, .rstd 0] (resetDev [tackReq mx])
def pwrDev : Dev := on [.pwr, .rst] (resetDev [])
def ctxAsk : Dev := on [.rst] ctxDev
def engDev : Dev := { resetDev [strReq] with runs := [{ engRun (.str 0 0 0) with done := false }] }

theorem witness_RequestedResets_asked :
    (writable host (.cor mx) R_CTRL (1 ||| 4) askDev ∧ writable host (.clu 0 0) R_CTRL (1 ||| 4) askDev ∧ writable host .pwr R_CTRL (1 ||| 4) pwrDev ∧
      writable host .rst RST_CTX_RESET (5 ||| 256) ctxAsk) ∧
    (plainCtrl .tck = true ∧ isSafe (.cor mx) askDev = false ∧ isSafe (.clu 0 0) askDev = false ∧ isSafe (rstOf (.cor mx)) askDev = false ∧
      missListed (.cor mx) askDev = false ∧ missListed (.clu 0 0) askDev = false ∧ plainCtrl (.cor mx) = true ∧ askDev.runs = [] ∧ slotAbsent mx askDev = false ∧
      askDev.net.reqs = [tackReq mx] ∧ byDom (.core mx) (tackReq mx).by_ askDev = true ∧ byDom (.cluster 0 0) (tackReq mx).by_ askDev = true) ∧
    (isSafe .pwr pwrDev = false ∧ isSafe .rst pwrDev = false ∧ missListed .pwr pwrDev = false ∧ pwrDev.runs = [] ∧ pwrDev.net.reqs = [] ∧ pwrDev.net.groups = []) ∧
    (bits 5 0 6 = 5 ∧ isSafe .rst ctxAsk = false ∧ ctxAsk.runs = [] ∧ hostHolds false ctxAsk = false ∧ ctxCores 5 ctxAsk = [mx] ∧ ctxAsk.net.reqs = [tackReq mx] ∧
      byDom (.core mx) (tackReq mx).by_ ctxAsk = true) ∧
    (ctxRun.rst = .rst ∧ ctxRun.doms = [.core mx] ∧ slotAbsent mx { resetDev [tackReq mx] with runs := [ctxRun] } = false) ∧
    (domCovers (.die 0) (.engine (.str 0 0 0)) = true ∧ engDev.binds = [] ∧ pressContexts engDev = [] ∧ engDev.net.reqs = [strReq] ∧
      byDom (.die 0) strReq.by_ engDev = true) ∧
    ((engRun .tck).doms = [.engine .tck] ∧ (engRun .tck).rst = .rst ∧ isSafe .tck { rstDev with runs := [engRun .tck], resets := [.engine .tck] } = false ∧
      missListed .tck { rstDev with runs := [engRun .tck], resets := [.engine .tck] } = false) :=
  ⟨⟨writable_of_canWrite (by decide +kernel), writable_of_canWrite (by decide +kernel), writable_of_canWrite (by decide +kernel), writable_of_canWrite (by decide +kernel)⟩,
    by decide +kernel⟩

theorem test_reset_request : (after (.resetReq host .tck 0 1) (st rstDev)).resets = [.engine .tck] := by decide +kernel
theorem test_ctx_reset_request : (after (.rstCtxReset host 5) (st (put [(regKey .rst R_WPERM, 0x800001FF), (regKey .rst R_CTRL, 1)] ctxDev))).out = [.msix 6 0] := by decide +kernel
theorem test_context_reset_timeout : (after (.contextResetTimeout 5) (st { resetDev [tackReq mx] with runs := [ctxRun] })).runs.any (fun r => decide (r.dom = .core mx)) = true := by
  decide +kernel
theorem test_die_reset_timeout : rdBit .rst RST_HB 16 (after (.dieResetTimeout 1) (st { resetDev [] with runs := [engRun (.die 1)] })) = false ∧
    rdBit .rst RST_HB 16 (after (.dieResetTimeout 1) (st { resetDev [] with runs := [{ engRun .tck with dom := .die 1 }] })) = true := by decide +kernel
theorem test_rail_reset : exec (.railReset 33) (st (resetDev [])) = exec (.dieReset 1 6) (st (resetDev [])) := rfl
theorem test_reset_exit : let d := after (.resetExit (.engine .tck) []) (st { rstDev with runs := [engRun .tck], resets := [.engine .tck] });
    d.resets = [] ∧ d.runs = [] := by decide +kernel
/-- A chunk that matches its digest is kept, another is not (R443). -/
theorem test_chunk : (getCore mx (after (.firmwareChunkReceive mx 0 [0, 0] false) (st fwDev))).chunks = [0] ∧
    (getCore mx (after (.firmwareChunkReceive mx 0 [0, 1] false) (st fwDev))).chunks = [] := by decide +kernel

/-! ### The host port -/

/-- Bytes 0x100 to 0x103 of the near store hold 1 to 4, and its unit serves. -/
def hostDev : Dev := memPut (keyNear 0x100) [1, 2, 3, 4] (served [.nsc 0 1, posBlk (blkPos mgmtPos (.nsc 0 1) {})])
/-- The same, started but still in its tests. -/
def unserved : Dev := wr .rst RST_BOOT 5 hostDev

theorem witness_HostAccesses :
    (hostUp hostDev = true ∧ hostServed hostDev = true ∧ hostDev.host.posted = [] ∧ portDeny hostDev = none ∧ hostSpot 0 2 0x100 4 hostDev = .key (keyNear 0x100) ∧
      (∀ p ∈ hostPieces (keyNear 0x100) 4, pieceShut p.1 hostDev = false ∧ pieceHeld p.1 hostDev = false) ∧
      (∀ g ∈ gransOf (keyNear 0x100) 4, flawAt g hostDev ≤ (eccLimits (keyBlk g hostDev) hostDev).1 ∧ rdBit (keyBlk g hostDev) ECC_INJ 3 hostDev = false)) ∧
    (keyNear 0x100 / 64 = (keyNear 0x100 + 4 - 1) / 64 ∧ windowHit (keyNear 0x100) 4 hostDev = false ∧ inReserve (keyNear 0x100) 4 = false ∧
      pieceShut (keyNear 0x100) hostDev = false ∧ ∀ i, i < 4 → keyFailed (keyNear 0x100 + i) hostDev = false) ∧
    (hostSpot 0 2 (2 ^ 35) 4 hostDev = denyExtent ∧ hostSpot 1 2 0x100 4 hostDev = denyVf) ∧
    (hostUp unserved = true ∧ hostServed unserved = false ∧ TlpError.malformed ≠ .completionTimeout ∧ ([1, 2, 3, 4] : List Nat).length = 4 ∧
      (hostDev.hostReads.find? fun r => r.1 == 0) = none) := by decide +kernel

/-- The near store is not enabled: a write of function 0 waits in front of it. -/
def waitHost : Dev := { wr (.nsc 0 1) R_CTRL 0 (served [posBlk (blkPos mgmtPos (.nsc 0 1) {})]) with host := { posted := [{ fn := 0, key := keyNear 0x100, data := [9], ep := false }] } }
theorem witness_HostAccesses_waits : hostUp waitHost = true ∧ hostServed waitHost = true ∧ (∀ w ∈ waitHost.host.posted, postedHeld w waitHost = true) ∧
    portDeny waitHost = none ∧ hostSpot 0 2 0x100 4 waitHost = .key (keyNear 0x100) ∧ (∃ w ∈ waitHost.host.posted, w.fn = 0) ∧
    (∃ p ∈ hostPieces (keyNear 0x100) 4, pieceHeld p.1 waitHost = true) ∧ (∀ p ∈ hostPieces (keyNear 0x100) 4, pieceShut p.1 waitHost = false) := by decide +kernel
/-- R156: the write lands once its unit serves, before a later one of its function. -/
theorem test_posted : memRd (after (.hostMemoryWrite 0 2 0x100 [7] false) (st { hostDev with host := waitHost.host })) (keyNear 0x100) = 7 := by decide +kernel

theorem test_host_read : (after (.hostMemoryRead 0 2 0x101 2 []) (st hostDev)).out = [.hostCpl [2, 3] 0 false] ∧
    (after (.hostMemoryRead 1 2 0x101 2 []) (st hostDev)).out = [.hostCpl [] 1 false] := by decide +kernel
theorem test_host_write : let d := after (.hostMemoryWrite 0 2 0x102 [9] false) (st hostDev); memRd d (keyNear 0x102) = 9 ∧ memRd d (keyNear 0x103) = 4 := by decide +kernel
/-- A host write into the firmware reserve is dropped with PERM_DENIED (R442). -/
theorem test_host_reserve : let d := after (.hostMemoryWrite 0 2 0x17C000100 [9] false) (st hostDev);
    memRd d (keyNear 0x17C000100) = 0 ∧ rdF .pci R_FAULT 0 16 d = cPermDenied := by decide +kernel
/-- Before service a request waits (R425). -/
theorem test_config_before_service : (after (.hostConfigRequest 0 0 none) (st unserved)).out = [.hostCpl [] 2 false] ∧
    (after (.hostConfigRequest 1 0 none) (st hostDev)).out = [.hostCpl [0x5C, 0x1F, 0x19, 0x9A] 0 false] := by decide +kernel
theorem test_tlp_error : rdB .pci PCI_ERRLOG 16 (after (.hostTlpError .malformed 3 [7, 8, 9, 10]) (st hostDev)) = 7 := by decide +kernel
theorem test_completion_of_nothing : (after (.hostCompletion 5 []) (st hostDev)).host.errNext = 1 := by decide +kernel

def grantDev : Dev := put [(bankKey .pci PCI_GRANT 64, 2 ^ 31), (bankKey .pci PCI_GRANT_LEN 64, 1), (regKey .pci PCI_LINK, 0x56)]
  { hostDev with host := { cfg := [(0x1010, 5), (0x2010, 6)] } }
theorem witness_HostPortResets : hostUp grantDev = true ∧ hostServed grantDev = true ∧ boundCtxs grantDev = [] ∧ rdF .pci PCI_LINK 0 3 grantDev ≠ 0 ∧
    hostServed (wr .rst RST_BOOT 5 grantDev) = false ∧ isGrant (regKey .pci PCI_LINK) = false := by decide +kernel
theorem witness_HostPortResets_vf : ∃ t, exec (.contextReset (2 - 1) 0) (st grantDev) = .next t := ⟨_, rfl⟩

theorem test_pf_flr : let d := after .pfFlr (st grantDev); rdB .pci PCI_GRANT 64 d = 0 ∧ d.host.cfg = [] := by decide +kernel
theorem test_vf_flr : (after (.vfFlr 2) (st grantDev)).host.cfg = [(0x1010, 5)] := by decide +kernel
theorem test_link_down : (after .hostLinkDown (st grantDev)).host.cfg = [] := by decide +kernel

/-! ### Memory care and the mesh -/

/-- Scrub on in a local memory, a near-store unit and a far-memory controller; one channel in service. -/
def careDev : Dev :=
  { put [(regKey (.lmm mx) ECC_SCRUB, 1), (regKey (.nsc 0 1) ECC_SCRUB, 1), (regKey (.fmc 0 0) ECC_SCRUB, 1), (regKey (.fmc 0 0) FMC_CHAN0, 2)]
      (served [.lmm mx, .nsc 0 1, .fmc 0 0]) with farMap := [0] }

theorem witness_MemoryCare :
    (careDev.flaws = [] ∧ careDev.poison = [] ∧ coreOk mx = true ∧ scrubOn (.lmm mx) careDev = true ∧ 64 * 3 < lmSize mx ∧
      granOf (keyLoc mx 192) ∈ gransOf (keyLoc mx (64 * 3)) 64 ∧ keyBlk (granOf (keyLoc mx 192)) careDev = .lmm mx ∧
      granOf (granOf (keyLoc mx 192)) = granOf (keyLoc mx 192) ∧ 1 ≤ (eccLimits (.lmm mx) careDev).1 ∧ (eccLimits (.lmm mx) careDev).1 < 2 ∧
      2 ≤ (eccLimits (.lmm mx) careDev).2) ∧
    (scrubOn (.nsc 0 1) careDev = true ∧ isSafe (.nsc 0 1) careDev = false ∧ granOf (nscWordKey 0 1 0) ∈ gransOf (nscWordKey 0 1 0) 32 ∧
      keyBlk (granOf (nscWordKey 0 1 0)) careDev = .nsc 0 1 ∧ 1 ≤ (eccLimits (.nsc 0 1) careDev).1) ∧
    (scrubOn (.fmc 0 0) careDev = true ∧ isSafe (.fmc 0 0) careDev = false ∧ careDev.farMap.findIdx? (· == 24 * 0 + 4 * 0 + 5 / chanLines % 4) = some 0 ∧
      chanState 0 careDev = 2 ∧ granOf (chanLineKey 0 5 careDev) ∈ gransOf (chanLineKey 0 5 careDev) 128 ∧ keyBlk (granOf (chanLineKey 0 5 careDev)) careDev = .fmc 0 0) ∧
    (({ careDev with wback := [keyNear 0x100] } : Dev).wback.find? (fun g => decide (keyBlk g careDev = .nsc 0 1))) = some (keyNear 0x100) ∧
    writable fwOrg (.nsc 0 1) ECC_INJ (2 ||| 1) careDev ∧ chanState 1 careDev ≠ 2 ∧ writable fwOrg (.fmc 0 0) (FMC_CHAN0 + 4 * 0) (0 ||| 0x10000) careDev :=
  ⟨by decide +kernel, by decide +kernel, by decide +kernel, by decide +kernel, writable_of_canWrite (by decide +kernel), by decide +kernel,
    writable_of_canWrite (by decide +kernel)⟩

/-- One wrong bit of a line is corrected and waits for its write-back (R222). -/
theorem test_lmm_scrub : (after (.lmmScrub mx 3 [⟨keyLoc mx 192, 1⟩]) (st careDev)).wback = [granOf (keyLoc mx 192)] := by decide +kernel
theorem test_nsc_scrub : (after (.nscScrub 0 1 0 [⟨keyNear 0x100, 1⟩]) (st careDev)).wback = [keyNear 0x100] := by decide +kernel
theorem test_fmc_scrub : (after (.fmcScrub 0 0 5 [⟨keyFar 640, 1⟩]) (st careDev)).wback.length = 1 := by decide +kernel
theorem test_writeback : (after (.eccWriteback (.nsc 0 1)) (st { careDev with wback := [keyNear 0x100], flaws := [(keyNear 0x100, 1)] })).flaws = [] := by decide +kernel
theorem test_inject : rdBit (.nsc 0 1) ECC_INJ 3 (after (.eccInject fwOrg (.nsc 0 1) 2) (st careDev)) = true := by decide +kernel
theorem test_window_end : (after (.eccWindowEnd (.nsc 0 1)) (st { careDev with eccOnce := [blkBase (.nsc 0 1)] })).eccOnce = [] := by decide +kernel
/-- Only a channel in service fails (R231). -/
theorem test_channel_fail : (after (.channelFail 0 0 1) (st careDev)).flash.mapout = [] := by decide +kernel

/-- A packet for router 1 at router 0, whose table says output 0; and packets at their last router. -/
def addPkt (seq : Nat) : Packet := { op := .add, cls := clRed, atype := 1, data := toBytes 8 5, seq := seq }
def meshPkt (p : Packet) (at_ dst : Nat) (g : Goal) : MeshPkt := { a := ⟨p, none⟩, at_ := at_, dst := dst, goal := g, bank := 0 }
def meshDev (ms : List MeshPkt) (ws : List (Nat × Nat)) : Dev :=
  { put ([(bankKey (posBlk 0) MSH_RT 0, 0x104), (bankKey (posBlk 0) MSH_RT 1, 0x100)] ++ ws) (served [posBlk 0, .nsc 0 0]) with net := { mesh := ms } }

theorem witness_Mesh :
    ((meshDev [meshPkt (pkt .put) 0 0 .unit] []).net.mesh[0]? = some (meshPkt (pkt .put) 0 0 .unit) ∧ rdBit (posBlk 0) MSH_CFG 1 (meshDev [] []) = true ∧
      rdBit (posBlk 0) MSH_CFG 1 (meshDev [] [(regKey (posBlk 0) MSH_CFG, 0)]) = false ∧ isRetired 0 (meshDev [] []) = false) ∧
    (bit (rtEntry 0 0 1 (meshDev [meshPkt (pkt .put) 0 1 (.link 3)] [])) 8 = true ∧ neighbour 0 0 = some 1 ∧ hopDown 1 (meshDev [] []) = none ∧
      bits (rtEntry 0 0 1 (meshDev [] [])) 4 4 = 0) ∧
    (isRetired 0 { meshDev [] [] with net := { retired := [0] } } = true) ∧
    ((meshDev [meshPkt (addPkt 1) 0 0 .unit, meshPkt (addPkt 2) 0 0 .unit] [(regKey (posBlk 0) MSH_CFG, 2)]).net.mesh.eraseIdx 0 |>.filter (mergeable (meshDev [] [(regKey (posBlk 0) MSH_CFG, 2)]) (meshPkt (addPkt 1) 0 0 .unit))) =
      [meshPkt (addPkt 2) 0 0 .unit] ∧
    (rtEntry 0 0 0 (meshDev [] []) = 0x104 ∧ bits 0x104 0 3 = 4 ∧ bits 0x104 4 4 = 0 ∧ toUnit (pkt .put).op = true ∧ toUnit (addPkt 1).op = true ∧
      portAnswer 0 (arrSpot ⟨pkt .put, none⟩ (meshDev [] [])) (reqLen (pkt .put)) (meshDev [] []) = none ∧
      portAnswer 0 (arrSpot ⟨addPkt 1, none⟩ (meshDev [] [])) (reqLen (addPkt 1)) (meshDev [] []) = none ∧
      portAnswer 0 (arrSpot ⟨pkt .put, none⟩ (meshDev [] [])) (reqLen (pkt .put)) (meshDev [] [(regKey (.nsc 0 0) R_CTRL, 2)]) = some nkTargetReset ∧
      fenced (posBlk 0) (meshDev [] []) = false) ∧
    (({ meshDev [] [] with net := { holding := some 0, hold := [meshPkt (pkt .put) 0 1 .unit] } } : Dev).net.holding = some 0 ∧ oldGone (meshDev [] []) = true ∧
      oldGone (meshDev [{ meshPkt (pkt .put) 0 1 .unit with bank := 1 }] []) = false) ∧
    (routerAt (posX 0) (posY 0) = (0, 0) ∧ posOf (routerPos 0 0).1 (routerPos 0 0).2 = 0) :=
  by decide +kernel

theorem witness_Mesh_retire : writable fwOrg (.msh 0 0) MSH_CFG (0 ||| 0x100) (meshDev [] []) := writable_of_canWrite (by decide +kernel)

theorem test_forward : (after (.meshPacketForward 0 0) (st (meshDev [meshPkt (pkt .put) 0 1 .unit] []))).net.mesh.map (·.at_) = [1] ∧
    (after (.meshPacketForward 0 0) (st (meshDev [meshPkt (pkt .put) 0 0 .unit] []))).net.arrived = [⟨pkt .put, none⟩] := by decide +kernel
/-- Two reductions for one address are merged: 5 + 5, two contributions (R295). -/
theorem test_merge : (after (.meshPacketForward 0 0) (st (meshDev [meshPkt (addPkt 1) 0 0 .unit, meshPkt (addPkt 2) 0 0 .unit] [(regKey (posBlk 0) MSH_CFG, 2)]))).net.arrived.map
    (fun a => (ofBytes a.pkt.data, a.pkt.aux1)) = [(10, 2)] := by decide +kernel
theorem test_hold_release : (after .injectionHoldRelease (st { meshDev [] [] with net := { holding := some 0, hold := [meshPkt (pkt .put) 0 1 .unit] } })).net.mesh.map (·.at_) =
    [0] := by decide +kernel

/-! ### The Marker -/

/-- One matrix core of logical cluster 0 with stream 0, a near-store buffer, and a migration of it to far memory in segment 0. -/
def pat1 : Pattern :=
  { pat0 with cores := [⟨0, 0, 0, [0], [], []⟩], buffers := [⟨0, 4096, 256, 0, some (0, 0), false⟩], migs := [⟨0, false, 0, 4096, [0], false⟩] }
def job1 (phase : Nat) : JobSt := { ctx := 5, pat := pat1, phase := phase, cores := [(0, 0)], clus := [(0, 0)], bufs := [⟨0, 0, 0x10000, 4096⟩] }

/-- The root of a device on its own, its Marker at work, with a FIT of context 5 waiting. -/
def mrkDev (addr : Nat) (js : List JobSt) : Dev :=
  { put [(regKey .tck TCK_CFG, 1), (regKey .glb GLB_DEVNUM, 2 ^ 31), (regKey .mrk MRK_SUBMIT_LO, 0x1000), (regKey .pwr PWR_RATING, 3600 + 4200 * 65536),
      (regKey .pwr PWR_CAP_TRAY, 3600), (regKey .pwr PWR_CAP_HOST, 3600), (regKey .pwr PWR_PLAN, 788 + 84 * 65536), (regKey .pwr PWR_BINCAP, 1900), (regKey .glb GLB_GRADE, 8 * 256)]
      (served [.mrk, .tck]) with fits := [(5, addr)], jobs := js, farMap := [0] }

def boundDev (j : JobSt) : Dev := { mrkDev 0x1000 [j] with binds := [(5 * 1024, 1)] }

theorem witness_MarkerRequests :
    (writable host .mrk MRK_CTL (5 ||| 0x100) (mrkDev 0x1000 []) ∧ bits 5 9 2 = 0 ∧ fitPending 5 (mrkDev 0x1000 []) = true ∧ fitPending 6 (mrkDev 0x1000 []) = false) ∧
    (writable host .mrk MRK_CTL (5 ||| 0x200) (boundDev (job1 1)) ∧ bits 5 8 1 = 0 ∧ bits 5 10 1 = 0 ∧ jobAt 5 (boundDev (job1 1)) = some (job1 1) ∧
      (ctxCores 5 (boundDev (job1 1))).isEmpty = false ∧ writable host .mrk MRK_CTL (5 ||| 0x200) (boundDev (job1 2)) ∧ (boundDev (job1 2)).net.reqs = [] ∧
      writable host .mrk MRK_CTL (5 ||| 0x200) (mrkDev 0x1000 []) ∧ jobAt 5 (mrkDev 0x1000 []) = none) ∧
    (writable host .mrk MRK_CTL (5 ||| 0x400) (boundDev (job1 1)) ∧ bits 5 8 2 = 0) :=
  ⟨⟨writable_of_canWrite (by decide +kernel), by decide +kernel⟩, ⟨writable_of_canWrite (by decide +kernel), by decide +kernel, by decide +kernel, by decide +kernel,
    by decide +kernel, writable_of_canWrite (by decide +kernel), by decide +kernel, writable_of_canWrite (by decide +kernel), by decide +kernel⟩,
    writable_of_canWrite (by decide +kernel), by decide +kernel⟩

theorem test_fit : (after (.mrkFit host 6) (st (mrkDev 0x1000 []))).fits = [(5, 0x1000), (6, 0x1000)] ∧ (after (.mrkFit host 5) (st (mrkDev 0x1000 []))).fits = [(5, 0x1000)] := by
  decide +kernel
theorem test_unbind : (after (.mrkUnbind host 5) (st (boundDev (job1 1)))).jobs = [{ job1 1 with unbind := true }] ∧
    (after (.mrkUnbind host 5) (st (boundDev (job1 3)))).jobs = [] := by decide +kernel
theorem test_refit_now : (after (.mrkRefitNow host 5) (st (boundDev (job1 1)))).jobs = [{ job1 1 with trig := 16 }] := by decide +kernel

/-- A signed object passes the checks of R478 when its form, digest, key and signature are right, the device has no owner and no counter stands. -/
theorem objCheck_zero (use : Nat) (o : SignedObj) (d : Dev) (k : List Byte) (hf : formOk use o = true) (hd : o.digest = Keccak.shake256 o.body 64)
    (hk : vendorKey d.sel.vkeys use o = some k) (hv : Config.ed448Verify k (sigPart1 o) o.vsig = true) (ho : d.sel.owner = none) (hc : o.ctr = 255) :
    objCheck use o d = 0 := by
  simp [objCheck, objCheckWith, hf, hd, hk, hv, ho, hc]

theorem vendorKey_one (ks : List VKey) (k : List Byte) (use : Nat) (o : SignedObj) (h : ks = [⟨k, 2 ^ use⟩]) (ho : o.vkeyid = keyHash k) :
    vendorKey ks use o = some k := by
  subst h; simp [vendorKey, ho, bit]

theorem fitStat_sel (c x y : Nat) (d : Dev) : (fitStat c x y d).sel = d.sel := rfl

def keyDev : Dev := { mrkDev 0x1000 [] with sel := { vkeys := [⟨[7], 8⟩] } }

theorem witness_Fitting :
    ((mrkDev 0x1000 []).fits = [(5, 0x1000)] ∧ markerRuns (mrkDev 0x1000 []) = true ∧ refitDue (mrkDev 0x1000 []) = none ∧
      refitDue (mrkDev 0x1000 [{ job1 1 with due := true }]) ≠ none ∧ (jobAt 5 (mrkDev 0x1000 [job1 1])).any holdsCores = true ∧
      devFailed (mrkDev 0x1000 []) = false ∧ devFailed (wr .rst RST_BOOT 8 (mrkDev 0x1000 [])) = true ∧ patAddrOk 0x1000 (mrkDev 0x1000 []) = true ∧
      patAddrOk 0x1001 (mrkDev 0x1001 []) = false ∧ pat1.wellFormed = true ∧ { pat1 with wellFormed := false }.wellFormed = false ∧
      objCheck 3 {} (mrkDev 0x1000 []) ≠ 0) ∧
    (∀ o : SignedObj, formOk 3 o = true → o.digest = Keccak.shake256 o.body 64 → o.vkeyid = keyHash [7] → o.ctr = 255 →
      Config.ed448Verify [7] (sigPart1 o) o.vsig = true → objCheck 3 o (fitStat 5 1 0 { keyDev with fits := [] }) = 0) ∧
    ((fitChecks 0 (fitArgs 5 pat1 (fitStat 5 1 0 { mrkDev 0x1000 [] with fits := [] })) (fitStat 5 1 0 { mrkDev 0x1000 [] with fits := [] })).isOk = true ∧
      (fitChecks 0 (fitArgs 5 { pat1 with len := 399 } (mrkDev 0x1000 [])) (mrkDev 0x1000 [])).isOk = false ∧
      isSafe .tck (mrkDev 0x1000 []) = false ∧ freeEntry (mrkDev 0x1000 []) = some 0 ∧ (mrkDev 0x1000 []).net.binds = []) :=
  ⟨by decide +kernel, fun o hf hd hk hc hv => objCheck_zero 3 o _ [7] hf hd (vendorKey_one _ [7] 3 o (by simp [fitStat_sel, keyDev]) hk) hv
    (by simp [fitStat_sel, keyDev]) hc, by decide +kernel⟩

theorem witness_Fitting_serving : serving (mrkDev 0x1000 []) = false ∧ (mrkDev 0x1000 []).net.tablesWait = false ∧ serving (mrkDev 0x1000 [job1 0]) = true := by decide +kernel

/-- A pattern that no key signs is refused with cause 1 (R252, R253). -/
theorem test_fitting_refused : rd .mrk MRK_FIT_STAT (after (.fitting pat1) (st (latch .mrk 1 (mrkDev 0x1000 [])))) = 5 + 4 * 256 + 65536 := by decide +kernel
theorem test_fit_plan : (fitChecks 0 (fitArgs 5 pat1 (mrkDev 0x1000 [])) (mrkDev 0x1000 [])).toOption.map (fun x => (x.cores, x.clk, x.bufs)) =
    some ([(0, 0)], 1900, [⟨0, 0, 0, 4096⟩]) := by decide +kernel

/-- A segment in which the migration is due, and an unbound context whose refit is due. -/
def migDev : Dev := boundDev (job1 1)
def dueDev : Dev := mrkDev 0x1000 [{ job1 2 with due := true }]
theorem witness_RefitAndMigration :
    (refitDue dueDev = some 5 ∧ jobAt 5 dueDev = some { job1 2 with due := true } ∧ markerRuns dueDev = true ∧ refitDue migDev ≠ some 5) ∧
    ((migDue 5 0 migDev).isSome = true ∧ (migPlace (job1 1) ⟨0, false, 0, 4096, [0], false⟩ ⟨0, 0, 0x10000, 4096⟩ migDev).isSome = true ∧
      ((job1 1).pat.relocs.any fun r => !r.isFlow && r.item == 0) = false ∧ migDev.flaws = [] ∧ migDue 5 1 migDev = none ∧
      (migPlace (job1 1) ⟨0, false, 0, 4096, [0], false⟩ ⟨0, 0, 0x10000, 4096⟩ { migDev with farMap := [] }).isNone = true) := by decide +kernel

/-- The device as a refit finds it, once substitutes are in and the cap is raised; with a pattern that fits, or whose LEN is out of range. -/
def refitDev (j : JobSt) : Dev := fitStat 5 5 0 (raiseCap ((List.range 32).foldl (fun d q => substituteLive (q / 8) (q % 8) d) (mrkDev 0x1000 [j])))
def unboundArgs (p : Pattern) : FitArgs := { ctx := 5, pat := p, epoch := false, kept := [], held := [⟨0, 0, 0x10000, 4096⟩] }
theorem witness_RefitAndMigration_plan :
    (serving dueDev = false ∧ devFailed (refitDev { job1 2 with due := true }) = false ∧ jobAt 5 (refitDev { job1 2 with due := true }) = some { job1 2 with due := true } ∧
      (fitChecks 0 (unboundArgs pat1) (refitDev { job1 2 with due := true })).isOk = true ∧
      (fitChecks 0 (unboundArgs { pat1 with len := 399 }) (refitDev { job1 2 with due := true, pat := { pat1 with len := 399 } })).isOk = false ∧
      isSafe .tck (refitDev { job1 2 with due := true }) = false ∧ freeEntry (refitDev { job1 2 with due := true }) = some 0 ∧
      (refitDev { job1 2 with due := true }).net.binds = []) := by decide +kernel

/-- The buffer goes to the lowest place of far memory (R262, R263). -/
theorem test_migration : migPlace (job1 1) ⟨0, false, 0, 4096, [0], false⟩ ⟨0, 0, 0x10000, 4096⟩ migDev = some 0 := by decide +kernel
theorem test_migration_abort : rd .mrk MRK_MIG_ABORT (after (.migrationAbort 5 0) (st migDev)) = 1 := by decide +kernel
/-- The refit that is due comes first, and without one nothing happens (R270). -/
theorem test_refit_not_due : (after (.refit 5) (st migDev)).jobs = migDev.jobs := by decide +kernel

/-! ### Requests and responses -/

/-- A request of core `mx`'s tack unit for byte 0x100 of the near store, which holds 1 to 8. -/
def reqPkt (op : Op) (data : List Byte) : Packet := { op := op, addr := 0x100, tag := 1, data := data, len := data.length - 1 }
def arr (op : Op) (data : List Byte) : Arrival := ⟨reqPkt op data, none⟩
def reqNet : NetSt := { reqs := [tackReq mx] }
def memDev (bs : List Blk) : Dev :=
  memPut (keyNear 0x100) [1, 2, 3, 4, 5, 6, 7, 8] { put [(regKey .glb GLB_DEVNUM, 2 ^ 31)]
    (served (posBlk (servedAt (arr .put []) (.nsc 0 1) { ({} : Dev) with net := reqNet }) :: bs)) with net := reqNet }
def reqDev : Dev := memDev [.nsc 0 1]
/-- Its memory unit is disabled; or fenced. -/
def idleMem : Dev := wr (.nsc 0 1) R_CTRL 0 reqDev
def fencedMem : Dev := wr (.nsc 0 1) R_CTRL 3 reqDev

theorem atMemory_of (a : Arrival) (k : Nat) (d : Dev) (h : (!rowRefused a d && decide (arrSpot a d = .mem k) &&
    (d.net.arrived.contains a || (decide (a.link = none) && decide (portAnswer (servedAt a (keyBlk k d) d) (.mem k) (reqLen a.pkt) d = none))) &&
    (spotBlks (.mem k) (reqLen a.pkt) d).all fun b => !holdsReq b false d && !waitsBehind a b d) = true) : atMemory a k d := by
  simpa [atMemory, and_assoc] using h

/-- Near-store keys belong to no channel. -/
theorem near_ok (d : Dev) (o i : Nat) (h : o + i < 2 ^ 40) : keyFailed (keyNear o + i) d = false := by
  have : keySpace (keyNear o + i) = 0 := by
    have h2 : keyNear o + i < 2 ^ 40 := by simpa only [keyNear] using h
    unfold keySpace; exact if_pos h2
  simp [keyFailed, this]

theorem witness_RequestsServed :
    atMemory (arr .put [9]) 0x100 reqDev ∧ atMemory (arr .get []) 0x100 reqDev ∧ atMemory { arr .add (toBytes 8 1) with pkt := { reqPkt .add (toBytes 8 1) with atype := 1 } } 0x100 reqDev ∧
    atMemory { arr .cas (toBytes 16 1) with pkt := { reqPkt .cas (toBytes 16 1) with len := 15 } } 0x100 reqDev ∧
    atMemory { arr .flagAdd (toBytes 8 1) with pkt := { reqPkt .flagAdd (toBytes 8 1) with addr := gAddr 0 4 40 } } (flagKey 0 5) (memDev [flagBlk 0, posBlk (servedAt (arr .put []) (flagBlk 0) { ({} : Dev) with net := reqNet })]) ∧
    reqDev.flaws = [] ∧ windowBars (arr .put [9]) 0x100 1 reqDev = false ∧ stitchKey 0x100 reqDev = false ∧ anyPoison 0x100 8 reqDev = false :=
  ⟨atMemory_of _ _ _ (by decide +kernel), atMemory_of _ _ _ (by decide +kernel), atMemory_of _ _ _ (by decide +kernel), atMemory_of _ _ _ (by decide +kernel),
    atMemory_of _ _ _ (by decide +kernel), by decide +kernel⟩

theorem witness_RequestsServed_channels (i : Nat) (h : i < 2 ^ 39) : keyFailed (keyNear 0x100 + i) reqDev = false := near_ok _ _ _ (by omega)

theorem test_put : memBytes 0x100 3 (after (.putReceive (arr .put [9, 8])) (st reqDev)) = [9, 8, 3] := by decide +kernel
theorem test_get : (after (.getReceive ⟨{ reqPkt .get [] with len := 2 }, none⟩ []) (st reqDev)).net.mesh.map (fun m => (m.a.pkt.op, m.a.pkt.data)) = [(Op.data, [1, 2, 3])] := by
  decide +kernel
theorem test_add : memBytes 0x100 4 (after (.addReceive ⟨{ reqPkt .add (toBytes 4 255) with atype := 0 }, none⟩) (st reqDev)) = [0, 3, 3, 4] := by decide +kernel
/-- The compare is with the bytes stored; the old value goes back either way (R287). -/
theorem test_cas : let new := toBytes 8 7;
    memBytes 0x100 8 (after (.casReceive ⟨reqPkt .cas ([1, 2, 3, 4, 5, 6, 7, 8] ++ new), none⟩) (st reqDev)) = new ∧
    memBytes 0x100 8 (after (.casReceive ⟨reqPkt .cas (new ++ new), none⟩) (st reqDev)) = [1, 2, 3, 4, 5, 6, 7, 8] := by decide +kernel
theorem test_put_notify : memBytes 0x100 1 (after (.putNotifyReceive (arr .putNotify [9])) (st reqDev)) = [9] := by decide +kernel

/-- A Press in service whose version windows lie at 0x100, and a framed context 0. -/
def winDev : Dev := { put [(bankKey prs0 PRS_WC_LO 3, 0x100), (bankKey prs0 PRS_WC_LEN_LO 3, 64)] reqDev with press := [(3, {})] }
def stitchArr : Arrival := ⟨{ reqPkt .flagAdd (toBytes 8 1) with addr := gAddr 0 4 (8 * stitchFlag) }, none⟩
def stitchDev : Dev :=
  put [(regKey .tck TCK_FRAME_EN_LO, 1)] (memDev [flagBlk 0, posBlk (servedAt (arr .put []) (flagBlk 0) { ({} : Dev) with net := reqNet })])

theorem witness_RequestsRefused :
    (rowRefused ⟨{ reqPkt .put [9] with addr := 2 ^ 45 }, none⟩ reqDev = true) ∧
    (rowRefused ⟨{ reqPkt .put [9] with addr := gAddr 0 2 0 }, none⟩ reqDev = false ∧ arrSpot ⟨{ reqPkt .put [9] with addr := gAddr 0 2 0 }, none⟩ reqDev = .absent) ∧
    (rowRefused (arr .put [9]) fencedMem = false ∧ arrSpot (arr .put [9]) fencedMem = .mem 0x100 ∧
      portAnswer (servedAt (arr .put [9]) (.nsc 0 1) fencedMem) (.mem 0x100) (reqLen (reqPkt .put [9])) fencedMem = some nkTargetReset ∧
      fencedMem.net.arrived.contains (arr .put [9]) = false) ∧
    (portAnswer (servedAt (arr .put [9]) (.nsc 0 1) idleMem) (.mem 0x100) (reqLen (reqPkt .put [9])) idleMem = none ∧
      (∃ b ∈ spotBlks (.mem 0x100) (reqLen (reqPkt .put [9])) idleMem, holdsReq b false idleMem = true) ∧
      ({ idleMem with net := { reqNet with arrived := [arr .put [9]] } } : Dev).net.arrived.contains (arr .put [9]) = true) ∧
    (atMemory (arr .put [9]) 0x100 winDev ∧ windowBars (arr .put [9]) 0x100 1 winDev = true) ∧
    (atMemory stitchArr (flagKey 0 stitchFlag) stitchDev ∧ windowBars stitchArr (flagKey 0 stitchFlag) 8 stitchDev = false ∧
      stitchKey (flagKey 0 stitchFlag) stitchDev = true) ∧
    (atMemory (arr .add (toBytes 4 1)) 0x100 { reqDev with poison := [0x100] } ∧ anyPoison 0x100 4 { reqDev with poison := [0x100] } = true) :=
  ⟨by decide +kernel, by decide +kernel, by decide +kernel, by decide +kernel, ⟨atMemory_of _ _ _ (by decide +kernel), by decide +kernel⟩,
    ⟨atMemory_of _ _ _ (by decide +kernel), by decide +kernel⟩, atMemory_of _ _ _ (by decide +kernel), by decide +kernel⟩

/-- A request to a fenced memory is refused with TARGET_RESET; one to a memory that is disabled waits (R47, R297). -/
theorem test_refused : (after (.putReceive (arr .put [9])) (st fencedMem)).net.mesh.map (fun m => (m.a.pkt.op, m.a.pkt.aux0)) = [(Op.nack, nkTargetReset)] := by
  decide +kernel

/-- A tack slot of core `mx` that waits for its answer. -/
def tackJob (w : Work) : Job := { jobOf w with phase := .running }
def waitsDev (w : Work) (op : Op) : Dev := { coreDev mx [tackJob w] with net := { reqs := [{ tackReq mx with op := op }] } }
def rsp (op : Op) (data : List Byte) : Packet := { op := op, cls := clRsp, tag := 1, data := data }
def mgmtDev : Dev := { on [.mgc, posBlk mgmtPos] (coreDev mx []) with net := { reqs := [{ tackReq mx with by_ := .mgmt }] } }

theorem steady_of (bs : List Blk) (d : Dev) (h : (decide (d.flaws = []) && bs.all fun b => !rdBit b ECC_INJ 3 d) = true) : steady bs d := by
  simpa [steady] using h

theorem witness_Responses :
    ((takeReq (rsp .ack []) (coreDev mx [])).1 = none ∧ (takeReq (rsp .ack []) mgmtDev).1 = some { tackReq mx with by_ := .mgmt } ∧
      issuerShut (rsp .ack []) mgmtDev = false ∧ mgmtDev.runs = []) ∧
    ((takeReq (rsp .ack []) (waitsDev (putWork 0x100) .put)).1 = some (tackReq mx) ∧ getJob 0 (getCore mx (waitsDev (putWork 0x100) .put)) = some (tackJob (putWork 0x100)) ∧
      coreOk mx = true ∧ issuerShut (rsp .ack []) (waitsDev (putWork 0x100) .put) = false) ∧
    steady [.lmm mx, flagBlk (coreCtx mx (waitsDev (putWork 0x100) .put))] (waitsDev (putWork 0x100) .put) ∧
    (getJob 0 (getCore mx (waitsDev (.tackGet 0x100 64 2 true 5) .get)) = some (tackJob (.tackGet 0x100 64 2 true 5)) ∧ 64 + 2 ≤ lmSize mx ∧
      faultValid (.seq mx) (waitsDev (putWork 0x100) .put) = false ∧ nkTargetReset ≠ nkAbsent) :=
  ⟨by decide +kernel, by decide +kernel, steady_of _ _ (by decide +kernel), by decide +kernel⟩

theorem test_ack : (getCore mx (after (.ackReceive (rsp .ack [])) (st (waitsDev (.tackPut 0x100 64 2 true false 5) .put)))).jobs.all (fun j => decide (j.phase = .done)) = true ∧
    flagVal 0 5 (after (.ackReceive (rsp .ack [])) (st (waitsDev (.tackPut 0x100 64 2 true false 5) .put))) = 1 := by decide +kernel
theorem test_data : lmNat mx 64 2 (after (.dataReceive (rsp .data [3, 4])) (st (waitsDev (.tackGet 0x100 64 2 true 5) .get))) = 0x0403 := by decide +kernel
theorem test_nack : rd (.seq mx) SEQ_ABS (after (.nackReceive { rsp .nack [] with aux0 := nkAbsent }) (st (waitsDev (putWork 0x100) .put))) = 48 := by decide +kernel
theorem test_cas_old : (after (.casOldReceive (rsp .casOld (toBytes 8 1))) (st mgmtDev)).net.reqs = [] := by decide +kernel

/-! ### Links, flows and multicast -/

/-- A packet of one flit of payload as it goes over a link. -/
def wirePkt : Packet :=
  { op := .put, cls := 1, addr := 0x100, srcDev := 0, dstFlow := 3, srcFlow := 4, seq := 7, len := 1, data := [1, 2], poison := [false], flow := true }
theorem wireOk_of (q : Packet) (h : (decide (q.cls < 8 ∧ q.sub < 2 ∧ q.addr < 2 ^ 64 ∧ q.srcDev < 2 ^ 15 ∧ q.dstFlow < 2 ^ 14 ∧ q.srcFlow < 2 ^ 14 ∧ q.seq < 2 ^ 16 ∧
    q.atype < 5 ∧ q.bank < 2 ∧ q.len < 2 ^ 13 ∧ q.total < 2 ^ 48 ∧ q.aux0 < 2 ^ 16 ∧ q.aux1 < 2 ^ 32 ∧ q.data.length = payloadLen q.op q.len ∧
    q.poison.length = flits q ∧ q.bad = false ∧ q.flow = true ∧ q.tag = 0 ∧ q.merged = [] ∧ opInClass q = true ∧ crosses q = false)) = true) (ho : q.op = .put) :
    wireOk q := by
  have h' := of_decide_eq_true h
  exact ⟨h'.1, h'.2.1, h'.2.2.1, h'.2.2.2.1, h'.2.2.2.2.1, h'.2.2.2.2.2.1, h'.2.2.2.2.2.2.1, h'.2.2.2.2.2.2.2.1, h'.2.2.2.2.2.2.2.2.1,
    h'.2.2.2.2.2.2.2.2.2.1, h'.2.2.2.2.2.2.2.2.2.2.1, h'.2.2.2.2.2.2.2.2.2.2.2.1, h'.2.2.2.2.2.2.2.2.2.2.2.2.1, h'.2.2.2.2.2.2.2.2.2.2.2.2.2.1,
    h'.2.2.2.2.2.2.2.2.2.2.2.2.2.2.1, h'.2.2.2.2.2.2.2.2.2.2.2.2.2.2.2.1, h'.2.2.2.2.2.2.2.2.2.2.2.2.2.2.2.2.1, h'.2.2.2.2.2.2.2.2.2.2.2.2.2.2.2.2.2.1,
    h'.2.2.2.2.2.2.2.2.2.2.2.2.2.2.2.2.2.2.1, h'.2.2.2.2.2.2.2.2.2.2.2.2.2.2.2.2.2.2.2.1, h'.2.2.2.2.2.2.2.2.2.2.2.2.2.2.2.2.2.2.2.2,
    fun c => by rw [ho]; simp, fun k => by rw [ho] at k; exact absurd k.1 (by simp)⟩

theorem witness_PacketsOnTheWire : wireOk wirePkt := wireOk_of _ (by decide +kernel) rfl
theorem test_wire : receivePacket (unitsOf wirePkt) = (wirePkt, false) := by decide +kernel

/-- Device 0 of a ring of two on axis 0, link 0 in a state; `x` is what its port holds. -/
def linkDev (state : Nat) (x : LinkSt) (resv : List Resv) : Dev :=
  { put [(regKey .glb GLB_DEVNUM, 2 ^ 31), (regKey .glb GLB_TORUS, 1), (regKey (lnkBlk 0) LNK_STATE, state)] (served [lnkBlk 0]) with
    net := { links := [(0, x)], resv := resv } }
def resv1 : Resv := { pkt := { wirePkt with addr := gAddr 1 0 0x100 }, entry := 0 }
def ent1 : TxEnt := { pkt := wirePkt }
def upLink : LinkSt := { credit := fullCredit, charged := List.replicate 13 0, freed := List.replicate 13 0 }
def emptyBlock : Block := { units := [], bseq := 0 }

theorem witness_Links :
    (linkState 0 (linkDev 2 {} []) = 2 ∧ devValid (linkDev 2 {} []) = true ∧ linkPresent 0 (linkDev 2 {} []) = true ∧ neighbourDev 0 (linkDev 2 {} []) = 1 ∧
      rdF .glb GLB_TORUS 0 10 (linkDev 2 {} []) = 1 ∧ rdBit (lnkBlk 0) LNK_CFG 0 (linkDev 2 {} []) = true ∧ linkState 0 (linkDev 4 upLink []) = 4 ∧ (getLink 0 (linkDev 4 upLink [])).credit ≠ []) ∧
    (linkUp 0 (linkDev 3 upLink []) = true ∧ linkUp 0 (linkDev 2 {} []) = false) ∧
    writable host (lnkBlk 0) LNK_CTL (0 ||| 1) (linkDev 3 upLink []) ∧
    (linkGrants 0 (linkDev 3 upLink [resv1]) = true ∧ nextResv 0 (linkDev 3 upLink [resv1]) = some resv1 ∧ resv1.from_ = none ∧
      (linkDev 3 upLink [resv1]).net.holding = none ∧ nextResv 0 (linkDev 3 { upLink with tx := List.replicate 1400 { ent1 with shr := 1 } } [resv1]) = none) ∧
    ((heads [ent1] []).find? (fun t => mayStart upLink t.pkt) = some ent1 ∧ vcOf wirePkt < 12 ∧ isRedVc (vcOf wirePkt) = false ∧ upLink.credit.length = 13 ∧
      (heads [] []).find? (fun t => mayStart upLink t.pkt) = none) ∧
    ({ upLink with replay := [emptyBlock] }.replay = emptyBlock :: [] ∧ upLink.replay = [] ∧ upLink.finish = false ∧
      { upLink with replay := [emptyBlock], finish := true }.finish = true ∧ upLink.retry.length < 128) ∧
    (emptyBlock.units.all (fun u => !u.valid) = true ∧ emptyBlock.bseq == upLink.expect ∧ (false && decide (emptyBlock.crc = Config.blockCrc (blockBytes emptyBlock)) && true) = false ∧
      upLink.asked + 1 < rdF (lnkBlk 0) LNK_CFG 8 8 (linkDev 3 upLink [])) :=
  ⟨by decide +kernel, by decide +kernel, writable_of_canWrite (by decide +kernel), by decide +kernel, by decide +kernel, by decide +kernel, by decide +kernel⟩

/-- A block whose CRC is right is good (R307). -/
theorem witness_Links_good : ∀ k : Block, k.crc = Config.blockCrc (blockBytes k) → k.bseq = upLink.expect →
    (true && decide (k.crc = Config.blockCrc (blockBytes k)) && k.bseq == upLink.expect) = true := by
  intro k h1 h2; simp [h2, ← h1]

theorem test_trained : linkUp 0 (after (.linkTrained 0 1 (partner 0) 1 50) (st (linkDev 2 {} []))) = true ∧
    linkState 0 (after (.linkTrained 0 2 (partner 0) 1 50) (st (linkDev 2 {} []))) = 6 := by decide +kernel
theorem test_lock_loss : linkState 0 (after (.laneLockLoss 0) (st (linkDev 3 upLink []))) = 4 ∧ linkState 0 (after (.lnkRetrain host 0 0) (st (linkDev 3 upLink []))) = 4 := by
  decide +kernel
theorem test_link_timeouts : linkState 0 (after (.retrainTimeout 0) (st (linkDev 4 upLink []))) = 2 ∧ linkState 0 (after (.trainingTimeout 0) (st (linkDev 2 {} []))) = 1 := by
  decide +kernel
theorem test_reservation : (getLink 0 (after (.txReservation 0) (st (linkDev 3 upLink [resv1])))).coming.map (·.pkt) = [{ resv1.pkt with sub := 1 }] := by decide +kernel
/-- A packet of one data unit: 71 of the 72 flits dedicated to its VC are left (R311). -/
theorem test_transmit : let x := getLink 0 (after (.packetTransmit 0) (st (linkDev 3 { upLink with tx := [ent1] } [])));
    x.tx = [] ∧ x.units.length = 1 ∧ x.credit[2]? = some 71 := by decide +kernel
theorem test_replay : rd (lnkBlk 0) LNK_RETRY (after (.blockSend 0) (st (linkDev 3 { upLink with replay := [emptyBlock] } []))) = 1 := by decide +kernel
theorem test_bad_block : (getLink 0 (after (.linkBlockReceive 0 emptyBlock { uncorr := 1 } false) (st (linkDev 3 upLink [])))).wantRetry = true := by decide +kernel

/-- A flow whose peer is device 1, with a request of management firmware out. -/
def flowDev (rs : List Req) : Dev := { put [(bankKey .fab FAB_FLOW 0, 0x80)] (served [.fab]) with net := { reqs := rs } }
theorem witness_FlowCare :
    (Sparse.wf flowInit (flowDev []).net.flows = true ∧ rdF .fab FAB_FLOW_SEL 0 14 (flowDev []) = 0 ∧ flowQuar 0 (flowDev []) = true) ∧
    writable host .fab FAB_FLOW_CTL (0 ||| 1) (flowDev []) ∧
    ((flowDev [{ tackReq mx with by_ := .mgmt, flow := some 0 }]).runs = [] ∧ (getFlow 0 (flowDev [{ tackReq mx with by_ := .mgmt, flow := some 0 }])).held = [] ∧
      (∀ r ∈ (flowDev [{ tackReq mx with by_ := .mgmt, flow := some 0 }]).net.reqs, r.flow = some 0 → r.by_ = .mgmt) ∧
      ((flowDev [{ tackReq mx with by_ := .mgmt, flow := some 0 }]).net.reqs.any fun r => r.flow == some 0) = true ∧
      ((flowDev []).net.reqs.any fun r => r.flow == some 0) = false ∧ faultValid .fab (flowDev []) = false) :=
  ⟨by decide +kernel, writable_of_canWrite (by decide +kernel), by decide +kernel⟩

theorem test_flow_release : flowQuar 0 (after (.flowRelease host 0) (st (flowDev []))) = false := by decide +kernel
theorem test_no_progress : let d := after (.flowNoprogress 0) (st (flowDev [{ tackReq mx with by_ := .mgmt, flow := some 0 }])); d.net.reqs = [] ∧ faultValid .fab d = true := by
  decide +kernel
theorem test_window_end_counts : (getFlow 0 (after (.violationWindowEnd 0) (st { flowDev [] with net := { flows := [(0, { viol := 5 })] } }))).viol = 0 := by decide +kernel

/-- A group of devices 0 (the source) and 1, as it stands at one of them; flow 0 is this device's. -/
def grp (g : GroupSt) : GroupSt := { g with ctx := 0, n := 2, source := 0, members := [(0, 0x200, 9), (1, gAddr 1 0 0x100, 0)] }
def base0 : GroupSt := { ctx := 0, n := 2, source := 0, members := [] }
def memberDev (g : GroupSt) (bs : List Blk) : Dev :=
  { put [(regKey .glb GLB_DEVNUM, 2 ^ 31 + 1), (regKey .glb GLB_TORUS, 1)] (served bs) with net := { groups := [grp g] } }
def sourceDev (g : GroupSt) : Dev :=
  { put [(regKey .glb GLB_DEVNUM, 2 ^ 31), (regKey .glb GLB_TORUS, 1), (bankKey .fab FAB_FLOW_PEER 0, 1), (bankKey .fab FAB_FLOW 0, 64 + 64 * 2 ^ 16 + 64 * 2 ^ 24)] (served [.fab, .nsc 0 2, .prs 0, posBlk mgmtPos]) with
    net := { groups := [grp g], reqs := [{ tag := 1, by_ := .mcast 2 1, op := .mcReserve, addr := 0, bytes := 0, flow := some 0, seq := 4 }] } }
def mcPkt (op : Op) (data : List Byte) : Packet := { op := op, cls := 2, aux0 := 2, srcDev := 0, seq := 4, flow := true, data := data }
def xfer1 : McXfer := ⟨0, [5, 6], 0, none⟩
/-- A Press of context 3 whose version window holds the member's region. -/
def barredDev (a : Nat) : Dev := { put [(bankKey prs0 PRS_WC_LO 3, a % 2 ^ 32), (bankKey prs0 (PRS_WC_LO + 4) 3, a / 2 ^ 32), (bankKey prs0 PRS_WC_LEN_LO 3, 64)] (memberDev base0 [.nsc 0 1]) with press := [(3, {})] }

theorem witness_Multicast :
    (findGroup 2 0 (memberDev base0 [.nsc 0 1]) = some (grp base0) ∧ ownMember (grp base0) (memberDev base0 [.nsc 0 1]) = some (1, gAddr 1 0 0x100, 0) ∧
      regionFenced 0 (gAddr 1 0 0x100) (memberDev base0 [.nsc 0 1]) = false ∧ (grp base0).reserved = false ∧ (grp { base0 with reserved := true, seq := 3 }).seq ≠ 4 ∧
      regionFenced 0 (gAddr 1 0 0x100) (memberDev base0 []) = true) ∧
    ((grp base0).waiting = none ∧ (memberDev base0 [.nsc 0 1]).runs = [] ∧ regionReset 0 (gAddr 1 0 0x100) (memberDev base0 [.nsc 0 1]) = false ∧ spotOf 0 (gAddr 1 0 0x100) (memberDev base0 [.nsc 0 1]) = .mem 0x100 ∧
      (mcStore 0 (gAddr 1 0 0x100) 0 [5, 6] [] (memberDev base0 [.nsc 0 1])).isSome = true ∧ (getFlow 0 (memberDev base0 [.nsc 0 1])).totals = [] ∧
      regionReset 0 (gAddr 1 0 0x100) { memberDev base0 [.nsc 0 1] with resets := [.die 0] } = true ∧
      mcBarred 0 (gAddr 1 0 0x100) 0 2 (memberDev base0 [.nsc 0 1]) = false ∧ mcBarred 0 (gAddr 1 0 0x100) 0 2 (barredDev (gAddr 1 0 0x100)) = true) ∧
    (ownGroup 2 (sourceDev base0) = some (grp base0) ∧ (takeReq { mcPkt .mcGrant [] with dstFlow := 0 } (sourceDev base0)).1.map (fun r => (r.by_, r.op)) = some (.mcast 2 1, .mcReserve) ∧
      issuerShut { mcPkt .mcGrant [] with dstFlow := 0 } (sourceDev base0) = false ∧ (getFlow 0 (sourceDev base0)).held = []) ∧
    (allGranted (grp { base0 with todo := [xfer1], asked := true }) (sourceDev base0) = false ∧ allGranted (grp { base0 with todo := [xfer1], asked := true, granted := [1] }) (sourceDev base0) = true ∧
      mcRuns xfer1 (sourceDev base0) = true ∧ ((farMembers (grp base0) (sourceDev base0)).all fun m => canEmit m.1.2.2 2 (sourceDev base0)) = true ∧
      ownBase (grp base0) (sourceDev base0) = some 0x200 ∧ spotOf 0 0x200 (sourceDev base0) = .mem 0x200 ∧
      (mcStore 0 0x200 0 [5, 6] [] (sourceDev base0)).isSome = true ∧ (treeHop 1 (sourceDev base0)).isSome = true) := by decide +kernel

theorem witness_Multicast_noneWait : noneWait (sourceDev base0) ∧ noneWait (flowDev [{ tackReq mx with by_ := .mgmt, flow := some 0 }]) := by
  unfold noneWait; decide +kernel

theorem test_mc_reserve : (after (.mcReserveReceive (mcPkt .mcReserve [])) (st (memberDev base0 [.nsc 0 1]))).net.groups.map (fun g => (g.reserved, g.seq)) = [(true, 4)] := by
  decide +kernel
theorem test_mc_data : memBytes 0x100 2 (after (.mcDataReceive (mcPkt .mcData [5, 6])) (st (memberDev base0 [.nsc 0 1]))) = [5, 6] := by decide +kernel
theorem test_mc_grant : (after (.mcGrantReceive { mcPkt .mcGrant [] with dstFlow := 0 }) (st (sourceDev base0))).net.groups.map (·.granted) = [[1]] := by decide +kernel
theorem test_mc_resend : rd .fab FAB_MCHOLD (after (.mcReserveResend 2) (st (sourceDev { base0 with todo := [xfer1], asked := true }))) = 1 := by decide +kernel
theorem test_mc_inject : memBytes 0x200 2 (after (.mcDataInject 2) (st (sourceDev { base0 with todo := [xfer1], asked := true, granted := [1] }))) = [5, 6] := by decide +kernel

/-! ### The state has no armed injection -/

theorem findSpec_ok (P : Nat → Bool) (t : List RegSpec) (o : Nat) (h : t.all (fun s => s.off != o || P s.reset) = true) :
    ∀ s, findSpec t o = some s → P s.reset = true := by
  induction t with
  | nil => intro s hs; cases hs
  | cons a t ih =>
    intro s hs
    simp only [List.all_cons, Bool.and_eq_true, Bool.or_eq_true, bne_iff_ne, ne_eq] at h
    simp only [findSpec] at hs
    split at hs
    · next he => cases hs; exact h.1.resolve_left (fun k => k he)
    · exact ih h.2 s hs

def noBit3 (v : Nat) : Bool := !bit (BitVec.ofNat 32 v).toNat 3
def quietAt (t : List RegSpec) : Bool := t.all fun s => s.off != ECC_INJ || noBit3 s.reset

theorem quiet_blk (b : Blk) (h : b ≠ .prs 0) (h' : b ≠ .snp 0) : quietAt (blkTable b) = true := by
  cases b with
  | prs d => cases d with
    | zero => exact absurd rfl h
    | succ n => simp only [blkTable]; rw [if_neg (by omega)]; decide +kernel
  | snp d => cases d with
    | zero => exact absurd rfl h'
    | succ n => simp only [blkTable]; rw [if_neg (by omega)]; decide +kernel
  | nsc d i => simp only [blkTable, eccGroup]; decide +kernel
  | fmc d i => simp only [blkTable, eccGroup]; decide +kernel
  | seq c => simp only [blkTable, nStreams]; cases isScalar c <;> cases isVector c <;> decide +kernel
  | lmm c => simp only [blkTable, eccGroup]; cases isMatrix c <;> decide +kernel
  | _ => simp only [blkTable]; decide +kernel

theorem blkBase_page (b : Blk) : blkBase b % 4096 = 0 := by
  cases b <;> simp only [blkBase, dieBase, cluBase, coreBase] <;> (try split) <;> (try split) <;> omega

def isPrsSnp : Blk → Bool
  | .prs _ | .snp _ => true
  | _ => false

theorem coreBlk_other (c : CoreRef) (w : Nat) (b : Blk) (h : coreBlk c w = some b) : isPrsSnp b = false := by
  unfold coreBlk at h
  split at h <;> split at h <;> first | (cases h; rfl) | cases h

theorem cluBlk_other (x c q : Nat) (b : Blk) (h : cluBlk x c q = some b) : isPrsSnp b = false := by
  unfold cluBlk at h
  split at h
  · dsimp only at h
    split at h
    · cases h
    · exact coreBlk_other _ _ _ h
  · (repeat' split at h) <;> first | (cases h; rfl) | cases h

theorem dieBlk_prs (x w : Nat) (b : Blk) (h : dieBlk x w = some b) (hb : isPrsSnp b = true) : w < 3 := by
  unfold dieBlk at h
  (repeat' split at h) <;> first | omega | (cases h; cases hb) | cases h

theorem chipBlk_other (w : Nat) (b : Blk) (h : chipBlk w = some b) : isPrsSnp b = false := by
  unfold chipBlk at h
  split at h <;> first | (cases h; rfl) | cases h

theorem blkAt_prs (a : Nat) (b : Blk) (h : blkAt a = some b) (hb : isPrsSnp b = true) : a % 0x02000000 < 0x10000 := by
  unfold blkAt at h
  split at h
  · rw [chipBlk_other _ _ h] at hb; cases hb
  · split at h
    · dsimp only at h
      split at h
      · have := dieBlk_prs _ _ _ h hb; omega
      · split at h
        · rw [cluBlk_other _ _ _ _ h] at hb; cases hb
        · cases h
    · cases h

theorem reset_quiet (key : Nat) (ho : key % 4096 = ECC_INJ) (hw : 0x10000 ≤ key % 2 ^ 28 % 0x02000000) : bit (regReset key).toNat 3 = false := by
  have hoff : regOff key = ECC_INJ := by simpa [regOff, bits] using ho
  unfold regReset
  split
  · rfl
  · next b hb =>
    have hn : b ≠ .prs 0 ∧ b ≠ .snp 0 := by
      constructor <;> rintro rfl <;> exact absurd (blkAt_prs _ _ hb rfl) (by simp only [bankStep]; omega)
    split
    · rfl
    · next s hs =>
      have hq : noBit3 s.reset = true := by
        rw [hoff] at hs
        have hc : regSpec b ECC_INJ = findSpec (blkTable b) ECC_INJ := by unfold regSpec; rw [if_neg (by decide)]
        exact findSpec_ok noBit3 _ _ (quiet_blk b hn.1 hn.2) s (by rw [← hc]; exact hs)
      have : bit (BitVec.ofNat 32 s.reset).toNat 3 = false := by simpa [noBit3] using hq
      split
      · next d r =>
        rw [if_neg (by rw [hoff]; decide)]; exact this
      · exact this

theorem near_window (m i : Nat) (h : i < 16) : 0x10000 ≤ (0x02000000 * (m + 1) + 0x10000 + 0x4000 * i + 0xAC) % 0x02000000 := by omega

theorem core_window (m q t u : Nat) (hq : q < 8) (ht : t ≤ 16) (hu : u = 0x1C000 ∨ u = 0x8000) :
    0x10000 ≤ (0x02000000 * (m + 1) + 0x200000 * (q + 1) + 0x20000 * t + u + 0xAC) % 0x02000000 := by
  rcases hu with rfl | rfl <;> omega

theorem slot_le (n : Nat) (h : n ≤ 15) : (if n ≤ 8 then n else n + 1) ≤ 16 := by split <;> omega
theorem ite_or (p : Prop) [Decidable p] : (if p then 0x1C000 else 0x8000) = 0x1C000 ∨ (if p then 0x1C000 else 0x8000) = 0x8000 := by split <;> simp

theorem mem_window (k : Nat) (d : Dev) : 0x10000 ≤ (blkBase (keyBlk k d) + ECC_INJ) % 2 ^ 28 % 0x02000000 := by
  rw [Nat.mod_mod_of_dvd _ (by decide)]
  unfold keyBlk
  split
  · exact near_window _ _ (by simp only [bits]; omega)
  · simp only [blkBase, dieBase, ECC_INJ, chanBlk]; omega
  · exact core_window _ _ _ _ (by simp only [keyCore, coreOfKey]; omega) (slot_le _ (by simp only [keyCore, coreOfKey]; omega)) (ite_or _)
  · exact near_window _ _ (by omega)

theorem sound_of (d : Dev) (hf : d.flaws = []) (hr : d.regs.all (fun p => p.1 % 4096 != ECC_INJ) = true)
    (hc : (0 :: d.farMap).all (fun g => chanState g d != 3) = true) : sound d := by
  refine ⟨hf, fun k => ⟨?_, ?_⟩⟩
  · have ho : (blkBase (keyBlk k d) + ECC_INJ) % 4096 = ECC_INJ := by have := blkBase_page (keyBlk k d); simp only [ECC_INJ]; omega
    have hl : ∀ p ∈ d.regs, p.1 ≠ blkBase (keyBlk k d) + ECC_INJ := by
      intro p hp he
      have := List.all_eq_true.mp hr p hp
      simp [he, ho] at this
    simp only [rdBit, rd, rdKey, regKey, Sparse.get_lacks hl]
    exact reset_quiet _ ho (mem_window k d)
  · simp only [keyFailed, Bool.and_eq_false_iff, beq_eq_false_iff_ne]
    right
    have hm : farChan (k - 2 ^ 40) d ∈ 0 :: d.farMap := by
      simp only [farChan]
      cases h : d.farMap[(k - 2 ^ 40) / 128 / 31 % farChans d]? with
      | none => simp
      | some x => exact List.mem_cons_of_mem _ (by simpa using List.mem_of_getElem? h)
    have := List.all_eq_true.mp hc _ hm
    simpa using this

theorem witness_RefitAndMigration_sound : sound migDev := sound_of _ (by decide +kernel) (by decide +kernel) (by decide +kernel)

/-! ### The Press -/

/-- One bucket of one parameter at 0x1000, rounded into 0x1100; its master and working copy at 0x2000 and 0x3000. -/
def bktBytes : List Byte := toBytes 8 0x1000 ++ toBytes 8 0x1100 ++ toBytes 8 (20 * 2 ^ 25) ++ toBytes 8 (1 + 2 ^ 16 + 2 * 2 ^ 32) ++
  toBytes 8 (3 + 4 * 2 ^ 16 + 5 * 2 ^ 32) ++ List.replicate 24 0
def shdBytes : List Byte := toBytes 8 0x2000 ++ List.replicate 16 0 ++ toBytes 8 0x3000 ++ toBytes 8 0x100 ++ List.replicate 24 0
/-- The recipe that stores the weight as it is: load W, store W, store the working copy, end (R382 to R385). -/
def rcpBytes : List Byte := toBytes 4 2 ++ toBytes 4 0x18 ++ toBytes 4 0x1B ++ List.replicate 244 0
def bkt1 : BktEnt := bktOf (some bktBytes)
def shd1 : ShdEnt := shdOf (some shdBytes)
def rcp1 : List MicroOp := (List.range 64).map fun i => microOf (ofBytes ((rcpBytes.drop (4 * i)).take 4))
def press1 : PressSt := { ents := [(bkt1, shd1)], recipes := [rcp1], st := [{}] }

/-- Context 0's Press registers, with its Presses at work, the flags of a first fill, arrival and end, and a reduction group of this device alone. -/
def prsRegs : List (Nat × Nat) := [(regKey .glb GLB_DEVNUM, 2 ^ 31), (bankKey prs0 PRS_BKT_LO 0, 0x4000), (bankKey prs0 PRS_SHD_LO 0, 0x5000), (bankKey prs0 PRS_RCP_LO 0, 0x6000),
  (bankKey prs0 PRS_WC_LO 0, 0x3000), (bankKey prs0 PRS_WC_LEN_LO 0, 0x100), (bankKey prs0 PRS_WC_STRIDE_LO 0, 0x100), (bankKey prs0 PRS_CTL 0, 0x10),
  (bankKey prs0 PRS_VFLAGS 0, 6 + 7 * 2 ^ 16), (bankKey prs0 PRS_FLAGS 0, 8 + 9 * 2 ^ 16), (bankKey prs0 PRS_VGRP 0, 7 * 2 ^ 16), (bankKey prs0 PRS_VWORD_LO 0, 0x9000)]
def prsDev (p : PressSt) : Dev :=
  memPut (flagKey 0 1) (toBytes 8 1) (memPut (flagKey 0 3) (toBytes 8 1) (memPut (flagKey 0 5) (toBytes 8 1) (memPut (flagKey 0 6) (toBytes 8 1) (memPut (flagKey 0 7) (toBytes 8 1)
    (memPut (flagKey 0 8) (toBytes 8 1) (memPut (keyNear 0x2000) (toBytes 4 0x3F800000)
      { put prsRegs (served [.prs 0, .prs 1, .prs 2, .prs 3, flagBlk 0]) with press := [(0, p)], net := { reds := [⟨0, 0, [(0, 0x8000, 0)], 7⟩] } }))))))

theorem witness_PressReduction :
    (getPress 0 (prsDev press1) = some press1 ∧ useReady 0 press1 0 (prsDev press1) = some (bkt1, {}) ∧ pressRuns 0 (prsDev press1) = true ∧ bkt1.en1 = false ∧ bkt1.en2 = false ∧
      bkt1.n = 1 ∧ redGroup 0 bkt1.group (prsDev press1) = some ⟨0, 0, [(0, 0x8000, 0)], 7⟩ ∧ redMember ⟨0, 0, [(0, 0x8000, 0)], 7⟩ (ownDev (prsDev press1)) = some (0, 0x8000, 0) ∧
      spotOf 0 bkt1.src (prsDev press1) = .mem (keyNear 0x1000) ∧ flagPoison 0 bkt1.freeFlag (prsDev press1) = false ∧ gDev (0x8000 + bkt1.accOff) = ownDev (prsDev press1) ∧
      (prsDev press1).net.holding = none) ∧
    sound (prsDev press1) ∧
    (ownGroup 7 (prsDev press1) = none ∧ flagReached 0 bkt1.arrive1 ((0 + 1) * bkt1.uses) (prsDev press1) = true ∧ spotOf 0 bkt1.out (prsDev press1) = .mem (keyNear 0x1100) ∧
      memOk bkt1.src (2 * bkt1.n) (prsDev press1) = true ∧ gSpace bkt1.src = 0 ∧ flagOpen 0 bkt1.freeFlag (prsDev press1) = true ∧
      memOk bkt1.out (2 * bkt1.n) (prsDev press1) = true ∧
      (∀ i, i < bkt1.n → memOk (0x8000 + accPlace bkt1.accOff i) 40 (prsDev press1) = true ∧ spotOf 0 (0x8000 + accPlace bkt1.accOff i) (prsDev press1) = .mem (keyNear 0x8000 + i) ∧ anyPoison (keyNear 0x8000 + i) 40 (prsDev press1) = false)) ∧
    ((({ press1 with st := [{ step := 1 }] }).st.all fun x => decide (0 < x.step)) = true ∧ gDev (prs64 0 PRS_VWORD_LO (prsDev press1)) = ownDev (prsDev press1) ∧
      addrOk 0x9000 (prsDev press1) = true ∧ addrOk 0x9007 (prsDev press1) = true ∧ prs64 0 PRS_VWORD_LO (prsDev press1) = 0x9000 ∧ gSpace 0x9000 = 0) ∧
    (flagReached 0 (bits (prsR 0 PRS_VFLAGS (prsDev press1)) 16 14) ((press1.told + 1) * (prsR 0 PRS_VDEV (prsDev press1) % 32768 + 1)) (prsDev press1) = true ∧
      spotOf 0 (prs64 0 PRS_VWORD_LO (prsDev press1)) (prsDev press1) = .mem (keyNear 0x9000) ∧ anyPoison (keyNear 0x9000) 8 (prsDev press1) = false ∧
      ownGroup (bits (prsR 0 PRS_VGRP (prsDev press1)) 16 10) (prsDev press1) = none ∧ gDev (flagAddr (ownDev (prsDev press1)) 0 6) = ownDev (prsDev press1)) :=
  ⟨by decide +kernel, sound_of _ (by decide +kernel) (by decide +kernel) (by decide +kernel), by decide +kernel, by decide +kernel, by decide +kernel⟩

/-- A use goes out as one ADD of 40 bytes, and the buffer is free again (R362). -/
theorem test_use_send : let d := after (.pressUseSend 0 0) (st (prsDev press1));
    d.net.mesh.map (fun m => (m.a.pkt.op, m.a.pkt.addr, m.a.pkt.data.length)) = [(Op.add, 0x8000, 40)] ∧ flagVal 0 2 d = 1 := by decide +kernel
theorem test_owner_round : (after (.pressOwnerRound 0 0) (st (prsDev press1))).press.map (fun p => p.2.st.map (·.step)) = [[1]] := by decide +kernel
theorem test_verdict : (after (.verdictContribute 0) (st (prsDev { press1 with st := [{ step := 1 }], nonfin := [0] }))).net.mesh.map (fun m => (m.a.pkt.op, m.a.pkt.addr, m.a.pkt.data)) =
    [(Op.add, 0x9000, toBytes 8 1)] := by decide +kernel
theorem test_verdict_told : (after (.verdictBroadcast 0) (st (prsDev press1))).net.mesh.map (fun m => (m.a.pkt.op, m.a.pkt.addr)) = [(Op.flagAdd, gAddr 0 4 48)] := by decide +kernel

/-- R367: 3 values widened, added and rounded to BF16: 1 + 2^-8 + 2^-8 is 1 + 2^-7. -/
theorem test_widen_round : (Esf.widen 0x3F80).round = 0x3F80 ∧ (Esf.ofBytes (addEsf (Esf.widen 0x3F80).bytes (Esf.widen 0x3C00).bytes)).round = 0x3F81 := by decide +kernel

/-- The keys of the table's regions. -/
def nearOf (a : Nat) : Nat := keyNear a
def outcome (p : PressSt) (d : Dev) : List (List Byte) :=
  if verdictHere 0 p d != 0 then (regionsAt bkt1 shd1 0).map fun r => (readRegion 0 r.1 r.2 d).2.1
  else (runEntry 0 0 bkt1 shd1 ((recipeBody rcp1).getD []) (List.replicate 16 0) 0 ((readRegion 0 0x1100 2 d).2.1) ((readRegion 0 0x2000 4 d).2.1) [] [] d).1
def placesOf (p : PressSt) (d : Dev) : List ((Nat × Nat) × List Byte) := (regionsAt bkt1 shd1 1).zip (outcome p d)
def placesOk (p : PressSt) (d : Dev) : Bool :=
  (((0x1100, 2) :: (0x6400, 256) :: regionsAt bkt1 shd1 0).all fun r => decide (spotOf 0 r.1 d = .mem (nearOf r.1)) && decide ((readRegion 0 r.1 r.2 d).2.2 = none)) &&
  (placesOf p d).all fun r => memOk r.1.1 r.2.length d && decide (spotOf 0 r.1.1 d = .mem (nearOf r.1.1)) &&
    ((regionsAt bkt1 shd1 0).all fun i => decide (nearOf r.1.1 + r.2.length ≤ nearOf i.1 ∨ nearOf i.1 + i.2 ≤ nearOf r.1.1)) &&
    (placesOf p d).all fun q => decide (q = r) || decide (nearOf r.1.1 + r.2.length ≤ nearOf q.1.1 ∨ nearOf q.1.1 + q.2.length ≤ nearOf r.1.1)

def flipDev (skipped : Bool) (ls : Nat) : Dev :=
  put [(bankKey prs0 PRS_LSCFG 0, 0x80 + 0x7F00 + 2 * 65536 + ls * 2 ^ 20)] (on [.tck] { prsDev { press1 with committed := true, skipped := skipped } with tck := {} })

theorem witness_PressCommit :
    ((prsDev press1).press = [(0, press1)] ∧ press1.ents = [(bkt1, shd1)] ∧ allPressRun (prsDev press1) = true ∧ fenceReady 0 press1 (prsDev press1) = true ∧
      placesOk press1 (prsDev press1) = true ∧ fenceReady 0 { press1 with verdict := 1 } (prsDev { press1 with verdict := 1 }) = true ∧
      placesOk { press1 with verdict := 1 } (prsDev { press1 with verdict := 1 }) = true) ∧
    sound (prsDev press1) ∧
    (calm { flipDev false 0 with press := [] } ∧ (flipDev false 0).tck.armed = [] ∧ (flipDev false 0).tck.seams = [] ∧ rd64 .tck TCK_FRAME_EN_LO (flipDev false 0) = 0 ∧
      bit (prsR 0 PRS_DG_CFG (flipDev false 0)) 3 = false ∧ press1.recorded = [] ∧ press1.st.any (·.stopped) = false ∧
      flagOpen 0 (bits (prsR 0 PRS_FLAGS (flipDev false 0)) 16 14) (flipDev false 0) = true ∧ flagPoison 0 (bits (prsR 0 PRS_FLAGS (flipDev false 0)) 16 14) (flipDev false 0) = false ∧
      bits (prsR 0 PRS_LSCFG (flipDev false 1)) 20 12 = 1 ∧ (bits (prsR 0 PRS_LS (flipDev false 1)) 8 16 + 1) % 65536 = 1) :=
  ⟨by decide +kernel, sound_of _ (by decide +kernel) (by decide +kernel) (by decide +kernel), calm_of (by decide +kernel), by decide +kernel⟩

/-- The recipe leaves the weight: slot 1 of the master gets slot 0's value (R376). -/
theorem test_fence : memBytes (keyNear 0x2100) 4 (after (.pressFence 0) (st (prsDev press1))) = toBytes 4 0x3F800000 := by decide +kernel
/-- R393: the first good step of a growth of 1 raises the scale; a skipped one lowers it by 2. -/
theorem test_loss_scale : prsR 0 PRS_LS (lossScale 0 false (flipDev false 1)) = 1 ∧ prsR 0 PRS_LS (lossScale 0 true (flipDev true 1)) = 0xFE := by decide +kernel

/-- The tables as they stand in memory. -/
def tabDev : Dev :=
  put [(bankKey prs0 PRS_CTL 0, 0)] (memPut (keyNear 0x4000) bktBytes (memPut (keyNear 0x5000) shdBytes (memPut (keyNear 0x6000) rcpBytes
    (put prsRegs (served [.prs 0, .prs 1, .prs 2, .prs 3])))))
/-- The same with nothing in memory. -/
def zeroTabs : Dev := put (prsRegs ++ [(bankKey prs0 PRS_CTL 0, 0)]) (served [.prs 0])
def digPress (dg : List Byte) : PressSt := { press1 with compare := [0], digests := [(0, dg)] }
/-- Digests of the last step, and the neighbour's in the inbox: zeros. -/
def digDev (dg : List Byte) : Dev :=
  put [(bankKey prs0 PRS_DG_CFG 0, 8 + 8 * 16), (bankKey prs0 PRS_DG_LO 0, 0x100000)]
    (memPut (flagKey 0 8) (toBytes 8 8) (prsDev (digPress dg)))

theorem witness_PressControl :
    (rdF prs0 PRS_CTX_SEL 0 6 tabDev = 0 ∧ bit (prsR 0 PRS_CTL tabDev) 0 = false ∧ readTables 0 tabDev = [(bkt1, shd1)] ∧
      tablesBad 0 (readTables 0 tabDev) (readRecipes 0 tabDev) tabDev = none ∧ bit (prsR 0 PRS_CTL zeroTabs) 0 = false ∧
      tablesBad 0 (readTables 0 zeroTabs) (readRecipes 0 zeroTabs) zeroTabs = some 0 ∧ tabDev.flaws = [] ∧ zeroTabs.flaws = [] ∧ faultValid prs0 zeroTabs = false) ∧
    writable host prs0 PRS_CTL (1 ||| 1) tabDev ∧
    (getPress 0 (digDev []) = some (digPress []) ∧ (digPress []).compare.contains 0 = true ∧ pressRuns 0 (digDev []) = true ∧ (digDev []).flaws = [] ∧
      flagReached 0 (bits (prsR 0 PRS_DG_CFG (digDev [])) 4 14) (4 * (prsStep 0 (digDev []) - 1 + 1)) (digDev []) = true ∧ faultValid (.prs 0) (digDev []) = false) ∧
    writable host prs0 PRS_TRK_ADVANCE (3 ||| 0x80000000) tabDev :=
  ⟨by decide +kernel, writable_of_canWrite (by decide +kernel), by decide +kernel, writable_of_canWrite (by decide +kernel)⟩

theorem recipePoison_clean {ctx r : Nat} {d : Dev} (h : sound d) (hp : d.poison = []) : recipePoison ctx r d = none := by
  unfold recipePoison
  dsimp only
  split
  · split
    · next k _ =>
      have : (gransOf k 256).find? (fun g => poisonOf g d) = none := by
        rw [List.find?_eq_none]; intro g _; simp [poisonOf, isPoison, hp, (h.2 g).2]
      rw [this]; rfl
    · rfl
  · rfl

theorem witness_PressControl_tables : (∀ x ∈ readTables 0 tabDev, recipePoison 0 x.2.recipe tabDev = none) ∧
    (digPress []).compare.filter (· != 0) = [] ∧ (digPress []).st.any (·.stopped) = false :=
  ⟨fun _ _ => recipePoison_clean (sound_of _ (by decide +kernel) (by decide +kernel) (by decide +kernel)) (by decide +kernel), by decide +kernel⟩

theorem test_press_enable : (after (.pressEnable host 1) (st tabDev)).press.map (fun p => p.2.ents) = [[(bkt1, shd1)]] := by decide +kernel
theorem test_digest : (after (.digestCompare 0 0) (st (digDev [1]))).tck.stops = [(0, 7)] ∧ (after (.digestCompare 0 0) (st (digDev (List.replicate 32 0)))).tck.stops = [] := by
  decide +kernel
theorem test_tracker : rdKey (after (.pressTrackerAdvance host 0 3) (st (put [(trkCur 3, 0x43960000)] tabDev))) (trkHist 3 1) = 0x43960000 := by decide +kernel

/-! ### The Baste -/

/-- Context 0 with a Press in service and the Bastes at work; its record at 0x800000, its image at host address 0x10000. -/
def snpDev (ctl : Nat) (x : SnapSt) : Dev :=
  put [(bankKey snp0 SNP_CTL 0, ctl), (bankKey snp0 SNP_REC_LO 0, 0x800000), (bankKey snp0 SNP_IMG_LO 0, 0x10000), (bankKey snp0 SNP_IMG_LEN_LO 0, 0x10000000),
      (bankKey snp0 SNP_PAR_LO 0, 0x2000000), (bankKey snp0 SNP_AXES 0, 0x10000), (bankKey snp0 SNP_LAST_CAP_LO 0, 4), (bankKey snp0 (SNP_LAST_CAP_LO + 4) 0, 0)]
    (on [.snp 0, .snp 1, .snp 2, .snp 3, .tck] { prsDev press1 with snap := [(0, x)] })
def gen0 : GenSt := { step := 0, buf := 0 }

/-- A read of an unflawed, unpoisoned memory leaves it so. -/
theorem clean_readEffects (k n : Nat) (d : Dev) (h : d.flaws = [] ∧ d.poison = []) :
    (readEffects k n d).flaws = [] ∧ (readEffects k n d).poison = [] := by
  unfold readEffects
  generalize gransOf k n = gs
  induction gs generalizing d with
  | nil => exact h
  | cons g gs ih =>
    refine ih (touchRead k n g d) ?_
    unfold touchRead
    split
    · exact h
    · have hc : (countAccess false g (inGran k n g) d).flaws = [] ∧ (countAccess false g (inGran k n g) d).poison = [] := by
        unfold countAccess checkCache
        dsimp only
        generalize keyBlk g d = b
        cases b <;> exact h
      have h0 : flawAt g (countAccess false g (inGran k n g) d) = 0 := by unfold flawAt; rw [hc.1]; rfl
      unfold eccCheck
      rw [h0]
      exact hc

/-- Nothing in the near store is poisoned where nothing is marked so. -/
theorem region_clean (ctx a n k : Nat) (d : Dev) (h : d.flaws = [] ∧ d.poison = []) (hs : spotOf ctx a d = .mem k) (hk : k + n < 2 ^ 40)
    (hm : memOk a n d = true) :
    (readRegion ctx a n d).2.2 = none := by
  have hp := (clean_readEffects k n d h).2
  have hn : ((gransOf k n).find? fun g => poisonOf g (readEffects k n d)) = none := by
    rw [List.find?_eq_none]
    intro g hg
    have hlt : g < 2 ^ 40 := by
      unfold gransOf at hg
      split at hg
      · cases hg
      · simp only [List.mem_map, List.mem_range] at hg
        obtain ⟨i, hi, rfl⟩ := hg
        have hz : keySpace k = 0 := by unfold keySpace; simp; omega
        have hz2 : keySpace (k + n - 1) = 0 := by unfold keySpace; simp; omega
        simp only [granOf, granSize, hz, hz2] at hi ⊢
        omega
    have hf : granOf g < 2 ^ 40 := by unfold granOf; omega
    have hz : keySpace g = 0 := by unfold keySpace; simp; omega
    simp [poisonOf, isPoison, hp, keyFailed, hz]
  simp only [readRegion, hs, hm, hn]; rfl

theorem image_clean (ctx s : Nat) (p : PressSt) (d : Dev) (h : d.flaws = [] ∧ d.poison = [])
    (hs : ((ownRec ctx s d, recSize) :: p.ents.flatMap fun x => regionsAt x.1 x.2 (s % 2)).all
      (fun r => memOk r.1 r.2 d && match spotOf ctx r.1 d with | .mem k => decide (k + r.2 < 2 ^ 40) | _ => false) = true) : imagePoison ctx s p d = none := by
  unfold imagePoison firstPoison
  rw [List.findSome?_eq_none_iff]
  intro r hr
  have := List.all_eq_true.mp hs r hr
  rw [Bool.and_eq_true] at this
  obtain ⟨hm, this⟩ := this
  split at this
  · exact region_clean ctx r.1 r.2 _ d h (by assumption) (of_decide_eq_true this) hm
  · cases this

theorem witness_CaptureAndSnapshots :
    (basteRuns (snpDev 0 { capturing := true }) = true ∧ captureDue 0 (snpDev 0 { capturing := true }) = false ∧
      basteWaits 0 (fun o => decide (o = .mirror)) (snpDev 0 { capturing := true }) = false ∧ (getSnap 0 (snpDev 0 { capturing := true })).capturing = true) ∧
    (captureDue 0 (snpDev 1 { capturing := true }) = true ∧ bits (snpR 0 SNP_CTL (snpDev 1 { capturing := true })) 1 2 = 0 ∧
      spotOf 0 (ownRec 0 (prsStep 0 (snpDev 1 { capturing := true })) (snpDev 1 { capturing := true })) (snpDev 1 { capturing := true }) = .mem (keyNear 0x800000) ∧
      recordPoison 0 (snpDev 1 { capturing := true }) = none) ∧
    sound (snpDev 1 { capturing := true }) ∧
    ((getSnap 0 (snpDev 0 { gen := some gen0 })).gen = some gen0 ∧ (3 : Nat) < 8 ∧ 3 ≠ ringOwn 0 (snpDev 0 { gen := some gen0 }) ∧
      (readNat 0 (doneSlot 0 3 false (snpDev 0 { gen := some gen0 })) 8 (snpDev 0 { gen := some gen0 }) == 0) = true ∧ gen0.asked.contains 3 = false ∧ gen0.lost ≠ some 3) ∧
    ((getSnap 0 (snpDev 0 { snap := some 4, snapSent := true })).snap.isSome = true ∧ (getSnap 0 (snpDev 0 {})).snap = none) ∧
    ((snpWrite host 0 0x400 (snpDev 0 {}) ∧ rdF snp0 SNP_CTX_SEL 0 6 (snpDev 0 {}) = 0) ∧
      (imagePress 0 (snpDev 0 {}) = press1 ∧ snp64 0 SNP_LAST_CAP_LO (snpDev 0 {}) ≠ noStep ∧ snp64 0 SNP_SNAP_STEP_LO (snpDev 0 {}) < snp64 0 SNP_LAST_CAP_LO (snpDev 0 {}) ∧
        imageSize press1 ≤ snp64 0 SNP_IMG_LEN_LO (snpDev 0 {}) ∧ snp64 0 SNP_IMG_LO (snpDev 0 {}) % 4096 = 0 ∧
        snp64 0 SNP_SNAP_STEP_LO (put [(bankKey snp0 SNP_SNAP_STEP_LO 0, 4)] (snpDev 0 {})) = 4 ∧
        (put [(bankKey snp0 SNP_SNAP_STEP_LO 0, 4)] (snpDev 0 {})).flaws = [] ∧ imagePoison 0 4 press1 (put [(bankKey snp0 SNP_SNAP_STEP_LO 0, 4)] (snpDev 0 {})) = none)) :=
  ⟨by decide +kernel, by decide +kernel, sound_of _ (by decide +kernel) (by decide +kernel) (by decide +kernel), by decide +kernel, by decide +kernel,
    ⟨⟨by decide, writable_of_canWrite (by decide +kernel), by decide +kernel⟩, by decide +kernel⟩, by decide +kernel, by decide +kernel, by decide +kernel,
    by decide +kernel, by decide +kernel, by decide +kernel, by decide +kernel, image_clean _ _ _ _ (by decide +kernel) (by decide +kernel)⟩

theorem recordPoison_clean {ctx : Nat} {d : Dev} (h : sound d) (hp : d.poison = []) : recordPoison ctx d = none := by
  unfold recordPoison
  rw [List.findSome?_eq_none_iff]
  intro r _
  have : (gransOf r.1 r.2).find? (fun g => poisonOf g d) = none := by
    rw [List.find?_eq_none]; intro g _; simp [poisonOf, isPoison, hp, (h.2 g).2]
  simp only [poisonKey, this]; rfl

/-- A record holds each persistent range whole (R403). -/
theorem record_long (ctx : Nat) (ps : List (Nat × Nat × Nat)) (d : Dev) (r : CoreRef × Nat × Nat) (h : r ∈ persistOf (ctxCores ctx d) ps) :
    r.2.2 ≤ (record ctx ps d).length := by
  have hs : ∀ (l : List (CoreRef × Nat × Nat)) (f : CoreRef × Nat × Nat → List Byte), r ∈ l → (f r).length ≤ (l.flatMap f).length := by
    intro l f hl
    induction l with
    | nil => cases hl
    | cons a l ih =>
      simp only [List.flatMap_cons, List.length_append]
      rcases List.mem_cons.mp hl with rfl | hl
      · omega
      · have := ih hl; omega
  have h2 := hs _ (fun r => memBytes (keyLoc r.1 r.2.1) r.2.2 d ++ List.replicate ((8 - (memBytes (keyLoc r.1 r.2.1) r.2.2 d).length % 8) % 8) 0) h
  have h3 : (memBytes (keyLoc r.1 r.2.1) r.2.2 d).length = r.2.2 := by simp only [memBytes, List.length_map, List.length_range]
  have h4 : r.2.2 ≤ ((memBytes (keyLoc r.1 r.2.1) r.2.2 d ++ List.replicate ((8 - (memBytes (keyLoc r.1 r.2.1) r.2.2 d).length % 8) % 8) 0) : List Byte).length := by
    rw [List.length_append, h3]; exact Nat.le_add_right _ _
  unfold record sections
  simp only [List.flatten_cons, List.length_append, List.flatten_nil, List.append_nil]
  exact Nat.le_trans h4 (Nat.le_trans h2 (by omega))

/-- A core of context 0 with a persistent range of 5 MiB. -/
def hugeDev : Dev :=
  { snpDev 1 { capturing := true } with binds := [(0, 1)], jobs := [{ ctx := 0, pat := pat0, phase := 1, persist := [(coreKey mx, 0, 0x500000)] }] }

theorem huge_persist : (mx, 0, 0x500000) ∈ persistOf (ctxCores 0 hugeDev) (persistRanges 0 hugeDev) := by decide +kernel
theorem huge_sound : sound hugeDev := sound_of _ (by decide +kernel) (by decide +kernel) (by decide +kernel)

/-- A capture of which only the Press's, the trackers' and the flags' sections hold anything: 136,040 bytes. -/
def recDev : Dev := snpDev 1 { capturing := true }

theorem rec_digests : (digestBytes 0 recDev).length = 32 := by
  have hp : getPress 0 recDev = some press1 := by decide +kernel
  unfold digestBytes
  rw [hp]
  show (List.flatMap _ [(_, 0)]).length = 32
  rw [List.flatMap_cons, List.flatMap_nil, List.append_nil]
  split
  · rename_i e; cases e
  · exact length_shake256 _ _

theorem rec_sections : record 0 (persistRanges 0 recDev) recDev = recHeader 0 (sections 0 (persistRanges 0 recDev) recDev) recDev ++
    (pressBytes 0 recDev ++ (digestBytes 0 recDev ++ (trkBytes trkCfg trkCur trkHist recDev ++ flagBytes 0 recDev))) := by
  have h4 : ctxCores 0 recDev = [] := by decide +kernel
  have h5 : spotOf 0 (snp64 0 SNP_FEED_LO recDev) recDev = .mem (keyNear 0) := by decide +kernel
  have h6 : snpR 0 SNP_FEED_LEN recDev % 8192 = 0 := by decide +kernel
  unfold record sections
  rw [h4, h5, h6]
  simp only [List.flatten_cons, List.flatten_nil, persistOf, List.flatMap_nil, List.filter_nil, memBytes, List.range_zero, List.map_nil,
    List.length_nil, Nat.zero_mod, Nat.sub_zero, Nat.mod_self, List.replicate_zero, List.append_nil, List.nil_append]

theorem rec_length : (record 0 (persistRanges 0 recDev) recDev).length = 136040 := by
  have h1 : (pressBytes 0 recDev).length = 72 := by decide +kernel
  rw [rec_sections, List.length_append, recHeader_length _ _ _ rfl, List.length_append, List.length_append, List.length_append, h1, rec_digests,
    trkBytes_length, flagBytes_length]

theorem witness_CaptureAndSnapshots_record :
    (memOk (ownRec 0 (prsStep 0 recDev) recDev) (record 0 (persistRanges 0 recDev) recDev).length recDev = true ∧
     (record 0 (persistRanges 0 recDev) recDev).length ≤ recSize) ∧
    ((getSnap 0 hugeDev).capturing = true ∧ basteRuns hugeDev = true ∧ captureDue 0 hugeDev = true ∧ sound hugeDev ∧ recordPoison 0 hugeDev = none ∧
      recSize < (record 0 (persistRanges 0 hugeDev) hugeDev).length) := by
  rw [rec_length]
  exact ⟨by decide +kernel, by decide +kernel, by decide +kernel, by decide +kernel, huge_sound, recordPoison_clean huge_sound (by decide +kernel),
    Nat.lt_of_lt_of_le (by decide) (record_long 0 _ _ _ huge_persist)⟩

theorem test_capture_ends : (getSnap 0 (after (.captureForward 0) (st (snpDev 0 { capturing := true })))).capturing = false := by decide +kernel
theorem test_snapshot_complete : (getSnap 0 (after (.snapshotComplete 0) (st (snpDev 0 { snap := some 4, snapSent := true })))).snap = none := by decide +kernel
/-- A step that has passed is refused with cause 7; a later one waits (R415, R420). -/
theorem test_snap : rd snp0 SNP_ERR (after (.snpSnap host 0) (st (snpDev 0 {}))) = 7 ∧
    (getSnap 0 (after (.snpSnap host 0) (st (put [(bankKey snp0 SNP_SNAP_STEP_LO 0, 5)] (snpDev 0 {}))))).snap = some 5 := by decide +kernel
/-- R412: member j holds chunk (r + 15 - j) mod 8 of member r's copy; seven of them, none its own. -/
theorem test_chunks : (List.range 8).all (fun r => ((List.range 8).filter (· != r)).all fun j => decide (chunkOf j r < 7)) = true := by decide +kernel
/-- R410: with a ring of one there is no neighbour to restore from: cause 4. -/
theorem test_restore : rd snp0 SNP_ERR (after (.snpRestore host 0x10) (st (snpDev 0 {}))) = 4 := by decide +kernel
theorem test_gather_waits : (getSnap 0 (after (.parityGather 0 3) (st (snpDev 0 { gen := some { gen0 with step := 1 } })))).gen = some { gen0 with step := 1 } := by decide +kernel

def rest1 : RestoreSt := { step := 4, source := 3, hostLeft := true, recOk := true }
/-- The record of a host restore is still being read. -/
def rest2 : RestoreSt := { step := 4, source := 3, hostLeft := true }
def readRecDev : Dev := { snpDev 0 { restore := some rest2 } with hostReads := [(0, .baste 0 0 .record 0x11000)] }
def readDev (n : Nat) : Dev := { snpDev 0 { restore := some rest1 } with hostReads := (List.range n).map fun i => (i, .baste 0 0 .record (0x10000 + 4096 * i)) }
/-- Parity on, generation 0 committed. -/
def rebuildDev : Dev := snpDev 4 {}
/-- A Baste in its safe state. -/
def safeSnp : Dev := enterSafe (.snp 1) (snpDev 0 {})

theorem snpWrite_of {org : Org} {val acts : Nat} {d : Dev} (h : canWrite org snp0 SNP_CTL (val ||| acts) d = true)
    (h2 : (decide (val < 2 ^ 32) && decide (val &&& 0x1F00 &&& (all32 - acts) = 0) && (!bit val 0 || bit (regVal snp0 SNP_CTL d) 0) &&
      (bit val 2 == bit (snpR (rdF snp0 SNP_CTX_SEL 0 6 d) SNP_CTL d) 2) && (!bit val 2 || bit (regVal snp0 SNP_CTL d) 2)) = true) : snpWrite org val acts d := by
  simp only [Bool.and_eq_true, decide_eq_true_eq, beq_iff_eq, Bool.or_eq_true, Bool.not_eq_true'] at h2
  obtain ⟨⟨⟨⟨a, b⟩, c⟩, e⟩, f⟩ := h2
  exact ⟨a, writable_of_canWrite h, b, fun k => c.resolve_left (by simp [k]), e, fun k => f.resolve_left (by simp [k])⟩

theorem witness_Restores :
    (snpWrite host 0 0x100 (snpDev 0 {}) ∧ snpWrite host 0x10 0x100 (snpDev 0 {}) ∧ snpWrite host 0x30 0x100 (snpDev 0 {}) ∧ snpWrite host 0 0x200 (snpDev 0 {}) ∧
      snpWrite host 0 0x800 (snpDev 0 {}) ∧ snpWrite host 4 0x1000 rebuildDev) ∧
    (bits 0 4 2 = 0 ∧ snp64 0 SNP_LAST_CAP_LO (snpDev 0 {}) ≠ snp64 0 SNP_RESTORE_STEP_LO (snpDev 0 {}) ∧ bits 0x10 4 2 = 1 ∧ dataLen 0 (snpDev 0 {}) ≤ 1 ∧ bits 0x30 4 2 = 3 ∧
      (snpDev 0 {}).flaws = [] ∧ faultValid snp0 (snpDev 0 {}) = false) ∧
    (isSafe .tck (snpDev 0 {}) = false ∧ stitchNum (put [(bankKey snp0 SNP_RESUME_LO 0, 9)] (snpDev 0 {})) + 1 < snp64 0 SNP_RESUME_LO (put [(bankKey snp0 SNP_RESUME_LO 0, 9)] (snpDev 0 {})) ∧
      freeEntry (snpDev 0 {}) = some 0 ∧ snp64 0 SNP_RESUME_LO (snpDev 0 {}) ≤ stitchNum (snpDev 0 {}) + 1) ∧
    (basteWaits 0 (fun o => decide (o = .relayGet) || decide (o = .relayPut)) (snpDev 0 {}) = false) ∧
    (parGen 0 rebuildDev ≠ noStep ∧ ringOwn 0 rebuildDev = 0 ∧ parGen 0 (snpDev 0 {}) = noStep ∧ basteRuns (snpDev 0 {}) = true ∧ basteRuns rebuildDev = true) ∧
    ((snpWrite host 0 0x100 safeSnp ∧ snpWrite host 0 0x800 safeSnp ∧ snpWrite host 0 0x1000 safeSnp) ∧ basteRuns safeSnp = false) ∧
    (hostUp (readDev 2) = true ∧ ((readDev 2).hostReads.find? fun q => q.1 == 0) = some (0, .baste 0 0 .record 0x10000) ∧ (getSnap 0 (readDev 2)).restore = some rest1 ∧
      snp64 0 SNP_IMG_LO (readDev 2) ≤ 0x10000 ∧ ((readDev 2).hostReads.filter (fun q => q.1 != 0)).any (fun q => isBaste 0 (fun o => decide (o = .record)) q.2) = true ∧
      spotOf 0 (ownRec 0 4 (readDev 2)) (readDev 2) = .mem (keyNear 0x800000) ∧ memOk (ownRec 0 4 (readDev 2)) 4096 (readDev 2) = true ∧ ((readDev 1).hostReads.filter (fun q => q.1 != 0)) = [] ∧
      basteWaits 0 restoreOp (readDev 1) = false ∧ rest1.parts.contains 2 = false ∧ rest1.recOk = true) ∧
    sound (readDev 2) ∧
    (rest2.recOk = false ∧ rest2.recBad = false ∧ rest2.source = 3 ∧ basteWaits 0 (fun o => decide (o = .record)) readRecDev = false ∧ readRecDev.flaws = [] ∧
      readRecDev.poison = [] ∧ spotOf 0 (ownRec 0 4 readRecDev) readRecDev = .mem (keyNear 0x800000) ∧ memOk (ownRec 0 4 readRecDev) recSize readRecDev = true ∧
      snp64 0 SNP_IMG_LO readRecDev + 8 ≤ 0x11000 ∧ 0x11000 - snp64 0 SNP_IMG_LO readRecDev + 4096 ≤ recSize ∧
      (List.range 8).all (fun i => memRd readRecDev (keyNear 0x800000 + i) == 0) = true ∧ (getSnap 0 readRecDev).restore = some rest2 ∧
      readRecDev.hostReads.find? (fun q => q.1 == 0) = some (0, .baste 0 0 .record 0x11000)) ∧
    sound readRecDev :=
  ⟨⟨snpWrite_of (by decide +kernel) (by decide +kernel), snpWrite_of (by decide +kernel) (by decide +kernel), snpWrite_of (by decide +kernel) (by decide +kernel),
      snpWrite_of (by decide +kernel) (by decide +kernel), snpWrite_of (by decide +kernel) (by decide +kernel), snpWrite_of (by decide +kernel) (by decide +kernel)⟩,
    by decide +kernel, by decide +kernel, by decide +kernel, by decide +kernel,
    ⟨⟨snpWrite_of (by decide +kernel) (by decide +kernel), snpWrite_of (by decide +kernel) (by decide +kernel), snpWrite_of (by decide +kernel) (by decide +kernel)⟩,
      by decide +kernel⟩,
    by decide +kernel, sound_of _ (by decide +kernel) (by decide +kernel) (by decide +kernel), by decide +kernel,
    sound_of _ (by decide +kernel) (by decide +kernel) (by decide +kernel)⟩

theorem test_resume_late : rd snp0 SNP_ERR (after (.snpResume host 0) (st (snpDev 0 {}))) = 8 := by decide +kernel
/-- R422: the safe state keeps a RELAY. -/
theorem test_relay_held : (getSnap 0 (after (.snpRelay host 0) (st safeSnp))).acts = 0x800 := by decide +kernel
theorem test_relay : bits (snpR 0 SNP_CTL (after (.snpRelay host 0) (st (snpDev 0 {})))) 16 3 = 6 := by decide +kernel
theorem test_host_timeout : rd snp0 SNP_ERR (after (.completionTimeout 0) (st (readDev 1))) = 9 := by decide +kernel

/-! ### What lies under every command -/

theorem witness_StepRunsTheFront : (st (served [])).pending = [] ∧ ({ st (served []) with pending := [.stitch] } : State).pending = .stitch :: [] := ⟨rfl, rfl⟩
theorem witness_ReservedLocations : presentBlk 0x38000 (served []) = none ∧ physOffset host 0x38000 (served []) = some 0x38000 ∧ vfRefused host 0x38000 (served []) = false ∧
    lcwWaits host 0x38000 (served []) = false ∧ hostUp (served []) = true ∧ hostServed (served []) = true ∧ (regSpec .glb 0xF00).isNone = true := by decide +kernel
theorem witness_Routers : (3 : Nat) < 4 ∧ (47 : Nat) < 48 ∧ routerPos 3 47 = (15, 11) := by decide
theorem test_reserved_reads_zero : (after (.registerRead host 0x38000 4 []) (st (served []))).out = [.regData 0] := by decide +kernel
/-- Neither the free values nor the clock come to a stop: an idle device goes on (log entry 2). -/
theorem test_idle : step { dev := served [] } = .next { dev := meshCycle (served []) } := rfl

end Sys2Proof.Tests
end

/-! The routers' coordinates (R12): where a die's routers lie, and `routerPos` and `routerAt` as each other's inverses. -/

namespace Sys2Proof.Machine

/-- The columns of die `d` (R12). -/
theorem routerPos_x_bounds (d r : Nat) :
    8 * (d % 2) ≤ (routerPos d r).1 ∧ (routerPos d r).1 ≤ 8 * (d % 2) + 7 := by
  simp only [routerPos]
  omega

/-- The rows of die `d` (R12): its 48 routers fill six rows of eight. -/
theorem routerPos_y_bounds {d r : Nat} (hr : r < 48) :
    6 * (d / 2) ≤ (routerPos d r).2 ∧ (routerPos d r).2 ≤ 6 * (d / 2) + 5 := by
  simp only [routerPos]
  omega

/-- Coordinates lead back to the die and the number they came from: `8 * (d % 2)` and `6 * (d / 2)` are whole
numbers of die widths and heights, so the divisions of `routerAt` give `d`'s parts and the remainders give `r`'s. -/
theorem routerAt_routerPos {d r : Nat} (hr : r < 48) : routerAt (routerPos d r).1 (routerPos d r).2 = (d, r) := by
  have hrow : r / 8 < 6 := by omega
  have hcol : r % 8 < 8 := Nat.mod_lt _ (by decide)
  simp only [routerPos, routerAt, Nat.mul_add_div, Nat.mul_add_mod, Nat.div_eq_of_lt hcol, Nat.div_eq_of_lt hrow,
    Nat.mod_eq_of_lt hcol, Nat.mod_eq_of_lt hrow, Nat.reduceLT, Nat.add_zero, gt_iff_lt]
  exact Prod.ext (Nat.mod_add_div d 2) (Nat.mod_add_div r 8)

/-- Coordinates of the mesh belong to one of the four dies. -/
theorem routerAt_die_lt {x y : Nat} (hx : x ≤ 15) (hy : y ≤ 11) : (routerAt x y).1 < 4 := by
  simp only [routerAt]
  omega

/-- A router's number within its die is below 48, whatever the coordinates. -/
theorem routerAt_number_lt (x y : Nat) : (routerAt x y).2 < 48 := by
  simp only [routerAt]
  omega

/-- The die and the number of a router of the mesh lead back to its coordinates: with two dies side by side, `x / 8` is the
die's parity and `y / 6` its half. -/
theorem routerPos_routerAt {x : Nat} (hx : x ≤ 15) (y : Nat) : routerPos (routerAt x y).1 (routerAt x y).2 = (x, y) := by
  have hdie : x / 8 < 2 := by omega
  have hcol : x % 8 < 8 := Nat.mod_lt _ (by decide)
  simp only [routerPos, routerAt, Nat.add_mul_mod_self_left, Nat.add_mul_div_left, Nat.div_eq_of_lt hdie, Nat.div_eq_of_lt hcol,
    Nat.mod_eq_of_lt hdie, Nat.mod_eq_of_lt hcol, Nat.reduceLT, Nat.zero_add]
  exact Prod.ext (Nat.div_add_mod x 8) (Nat.div_add_mod y 6)

end Sys2Proof.Machine

namespace Sys2Proof.Proofs
open Sys2Proof.Machine

/-- Settles O60: a die's coordinates lie in its quarter, and `routerAt` and `routerPos` undo each other. -/
theorem routers : Obligations.Routers := by
  unfold Obligations.Routers
  refine ⟨fun d r hd hr => ?_, fun x y hx hy => ⟨routerAt_die_lt hx hy, routerAt_number_lt x y, routerPos_routerAt hx y⟩⟩
  obtain ⟨hxlo, hxhi⟩ := routerPos_x_bounds d r
  obtain ⟨hylo, hyhi⟩ := routerPos_y_bounds (d := d) hr
  have hxmesh : (routerPos d r).1 ≤ 15 := by omega
  have hymesh : (routerPos d r).2 ≤ 11 := by omega
  exact ⟨hxlo, hxhi, hylo, hyhi, hxmesh, hymesh, routerAt_routerPos hr⟩

end Sys2Proof.Proofs

/-! Reserved locations of BAR0 (R52): what a served access is, that a read there gives 0 and a write there changes nothing, and that the
ID of a block is never 0. -/

namespace Sys2Proof.Machine

/-! ### Accesses that are served (R40, R64, R65) -/

/-- An access of an origin at an offset of BAR0 is served: the host port is up and serves it, a VF is neither cut off by the safe state
of PCI nor outside its own cores, and no refit holds the access. -/
structure AccessServed (org : Org) (a : Nat) (d : Dev) : Prop where
  host : isHost org = true → hostUp d = true ∧ hostServed d = true
  vfSafe : org.cls = 2 → isSafe .pci d = false
  vfReach : vfRefused org a d = false
  settled : lcwWaits org a d = false

theorem AccessServed.hostUp_of_isHost {org : Org} {a : Nat} {d : Dev} (h : AccessServed org a d) : (isHost org && !hostUp d) = false := by
  cases hh : isHost org with
  | false => rfl
  | true => simp [(h.host hh).1]

theorem AccessServed.hostServed_of_isHost {org : Org} {a : Nat} {d : Dev} (h : AccessServed org a d) : (isHost org && !hostServed d) = false := by
  cases hh : isHost org with
  | false => rfl
  | true => simp [(h.host hh).2]

theorem AccessServed.vf_not_safe {org : Org} {a : Nat} {d : Dev} (h : AccessServed org a d) : (org.cls == 2 && isSafe .pci d) = false := by
  by_cases hvf : org.cls = 2
  · simp [h.vfSafe hvf]
  · simp [hvf]

theorem AccessServed.write_not_dropped {org : Org} {a : Nat} {d : Dev} (h : AccessServed org a d) :
    (isHost org && (!hostUp d || !hostServed d || (org.cls == 2 && isSafe .pci d))) = false := by
  rw [Bool.and_or_distrib_left, Bool.and_or_distrib_left, h.hostUp_of_isHost, h.hostServed_of_isHost, h.vf_not_safe, Bool.and_false]
  rfl

theorem widthOk_four {a : Nat} (h : a % 4 = 0) : widthOk a 4 = true := by simp [widthOk, h]

/-- A served write of 32 bits is one write of the register at its physical offset. -/
theorem writeAccess_served {org : Org} {a p : Nat} {d : Dev} (h : AccessServed org a d) (ha : a % 4 = 0) (hp : physOffset org a d = some p)
    (v : Nat) : writeAccess org a 4 v d = regWrite false org p (v % 2 ^ 32) d := by
  simp [writeAccess, doWrite, h.write_not_dropped, h.vfReach, h.settled, widthOk_four ha, hp]

/-- A served read of 32 bits answers with one read of the register at its physical offset. -/
theorem readAccess_served {org : Org} {a p : Nat} {d : Dev} (h : AccessServed org a d) (ha : a % 4 = 0) (hp : physOffset org a d = some p)
    (flips : List (Nat × Nat)) : readAccess org a 4 flips d = answer (regRead org p flips d) := by
  simp [readAccess, doRead, h.hostUp_of_isHost, h.hostServed_of_isHost, h.vf_not_safe, h.vfReach, h.settled, widthOk_four ha, hp]

/-! ### Reserved locations (R52) -/

/-- A physical offset of BAR0 is reserved: it lies in no block, or at no register of its block. -/
def reservedAt (p : Nat) (d : Dev) : Prop :=
  presentBlk p d = none ∨ ∃ b, presentBlk p d = some b ∧ regSpec b (regOff p) = none

theorem regRead_reserved {p : Nat} {d : Dev} (h : reservedAt p d) (org : Org) (flips : List (Nat × Nat)) :
    regRead org p flips d = (d, 0) := by
  obtain hnone | ⟨b, hb, hreg⟩ := h
  · simp [regRead, hnone]
  · simp [regRead, hb, hreg]

theorem regWrite_reserved {p : Nat} {d : Dev} (h : reservedAt p d) (armed : Bool) (org : Org) (v : Nat) :
    regWrite armed org p v d = d := by
  obtain hnone | ⟨b, hb, hreg⟩ := h
  · simp [regWrite, hnone]
  · simp [regWrite, hb, hreg]

theorem exec_registerRead_reserved {s : State} {org : Org} {a p : Nat} (h : AccessServed org a s.dev) (ha : a % 4 = 0)
    (hp : physOffset org a s.dev = some p) (hr : reservedAt p s.dev) (flips : List (Nat × Nat)) :
    exec (.registerRead org a 4 flips) s = .next { s with dev := { s.dev with out := .regData 0 :: s.dev.out } } := by
  have hread : readAccess org a 4 flips s.dev = answer (s.dev, 0) := by
    rw [readAccess_served h ha hp, regRead_reserved hr]
  simp only [exec, execRegisterRead, onDev_eq, hread, answer]

theorem exec_registerWrite_reserved {s : State} {org : Org} {a p : Nat} (h : AccessServed org a s.dev) (ha : a % 4 = 0)
    (hp : physOffset org a s.dev = some p) (hr : reservedAt p s.dev) (v : Nat) :
    exec (.registerWrite org a 4 v) s = .next s := by
  have hwrite : writeAccess org a 4 v s.dev = s.dev := by
    rw [writeAccess_served h ha hp, regWrite_reserved hr]
  simp only [exec, execRegisterWrite, onDev_eq, hwrite]

/-! ### The ID register (R42, R66) -/

/-- The block types are 0x01 to 0x2B. -/
theorem blkType_bounds (b : Blk) : 0 < blkType b ∧ blkType b ≤ 0x2B := by
  cases b with
  | seq c =>
    simp only [blkType]
    split
    · decide
    · split <;> decide
  | _ => simp [blkType]

/-- A die's two bits, a cluster's four, a slot's four and six for an index: the instance fills at most the 16 low bits of the ID. -/
theorem blkInstance_lt {b : Blk} (h : blkOk b = true) : blkInstance b < 65536 := by
  cases b with
  | die d | prs d | snp d | rstd d | nsc d i | fmc d i | lnk d i | msh d r | clu d c | str d c i =>
    simp only [blkOk, Bool.and_eq_true, decide_eq_true_eq] at h
    simp only [blkInstance]
    omega
  | cor c | seq c | arr c | fed c | vec c | txb c | sct c | lmm c =>
    simp only [blkOk, coreOk, Bool.and_eq_true, decide_eq_true_eq] at h
    simp only [blkInstance]
    omega
  | _ => decide

theorem blkId_bounds {b : Blk} (h : blkOk b = true) : 0 < blkId b ∧ blkId b < 2 ^ 32 := by
  obtain ⟨hpos, hle⟩ := blkType_bounds b
  have hinst := blkInstance_lt h
  simp only [blkId]
  omega

/-- ID is a register of every block, with no bit that is write-only. -/
theorem regSpec_id (b : Blk) : regSpec b R_ID = some (ro R_ID) := rfl

theorem regVal_id {b : Blk} (h : blkOk b = true) (d : Dev) : regVal b R_ID d = blkId b := by
  have hlt := (blkId_bounds h).2
  have hshown (v : Nat) : shown b R_ID v d = blkId b := if_pos rfl
  have hmask : blkId b &&& 0xFFFFFFFF = blkId b % 2 ^ 32 := Nat.and_two_pow_sub_one_eq_mod _ 32
  simp only [regVal, regSpec_id, hshown, ro, Nat.sub_zero, hmask, Nat.mod_mod]
  exact Nat.mod_eq_of_lt hlt

end Sys2Proof.Machine

namespace Sys2Proof.Proofs
open Sys2Proof.Machine

/-- Settles O59: a served access to a reserved location reads 0 or changes nothing, and a block's type, the upper half of its ID, is
never 0. -/
theorem reservedLocations : Obligations.ReservedLocations := by
  unfold Obligations.ReservedLocations
  refine ⟨fun s org a p hhost hsafe hreach hwait ha hp hr => ?_, fun b => ⟨Nat.ne_of_gt (blkType_bounds b).1, fun d hok => ?_⟩⟩
  · have hserved : AccessServed org a s.dev := ⟨hhost, hsafe, hreach, hwait⟩
    exact ⟨exec_registerRead_reserved hserved ha hp hr [], exec_registerWrite_reserved hserved ha hp hr⟩
  · rw [regVal_id hok]
    exact Nat.ne_of_gt (blkId_bounds hok).1

end Sys2Proof.Proofs
